-- ==== Sys2Proof/Word.lean ====
section
/-! DEFINITION. The words, bytes and line levels of FBSEQ (spec/00_scope.md R11, R14). -/

namespace Sys2Proof

/-- One 32-bit host command word or response word (R80, R94). -/
abbrev Word := BitVec 32

/-- One plane byte or serial byte (R11: a byte is 8 bits). -/
abbrev Byte := BitVec 8

/-- The level of a line: 0 or 1 (R14). -/
inductive Level where
  /-- level 0 -/
  | low
  /-- level 1 -/
  | high
deriving DecidableEq, Repr, Inhabited

end Sys2Proof
end

