-- ==== Sys2Proof/Syntax.lean ====
section
/-! DEFINITION. The types of R16 and the host commands of FBSEQ, one constructor per row of
spec/opcode_table.json (spec/30_encoding.md R80 to R91). -/

namespace Sys2Proof

/-- PixelValue (R16). -/
inductive PixelValue where
  | white
  | black
  | accent
deriving DecidableEq, Repr, Inhabited

/-- ColorMode (R16): black-white-red, black-white-yellow, black-white. -/
inductive ColorMode where
  | bwr
  | bwy
  | bw
deriving DecidableEq, Repr, Inhabited

/-- The panel variant (R6, R121): code 0 has matching geometry, code 1 is rotated. -/
inductive Variant where
  | matching
  | rotated
deriving DecidableEq, Repr, Inhabited

/-- The 16 values of OPC, word 0 bits 31:28 (R81). -/
inductive Opcode where
  | reserved0
  | configure
  | destroy
  | setPixel
  | setPixels
  | drawBitmap
  | setBorder
  | getWidth
  | getHeight
  | render
  | getStatus
  | reservedB
  | reservedC
  | reservedD
  | reservedE
  | reservedF
deriving DecidableEq, Repr, Inhabited

/-- A host command with its operands pulled out of its words (R85). A two-bit code stays a code: its
reserved values are operands that the command's own rule rejects (R91), not encodings that do not decode. -/
inductive Instr where
  /-- R231: create a Display for a variant code and a mode code. -/
  | configure (varc modec : BitVec 2)
  /-- R233: release the Display. -/
  | destroy
  /-- R130: write one pixel. -/
  | setPixel (pvc : BitVec 2) (x y : BitVec 16)
  /-- R135: fill a rectangle. -/
  | setPixels (pvc : BitVec 2) (x y w h : BitVec 16)
  /-- R140: draw the set bits of a column bitmap; byte `j` of `bitmap` is byte_j of R85. -/
  | drawBitmap (pvc : BitVec 2) (x y w h : BitVec 16) (bitmap : List Byte)
  /-- R235: set the border. -/
  | setBorder (pvc : BitVec 2)
  /-- R145: read the visible width. -/
  | getWidth
  /-- R147: read the visible height. -/
  | getHeight
  /-- R170: start the render sequence. -/
  | render
  /-- R237: read the status word. -/
  | getStatus
  /-- R262: reserved opcode 0x0 with its 28 ignored bits. -/
  | reserved0 (low : BitVec 28)
  /-- R262: reserved opcode 0xB. -/
  | reservedB (low : BitVec 28)
  /-- R262: reserved opcode 0xC. -/
  | reservedC (low : BitVec 28)
  /-- R262: reserved opcode 0xD. -/
  | reservedD (low : BitVec 28)
  /-- R262: reserved opcode 0xE. -/
  | reservedE (low : BitVec 28)
  /-- R262: reserved opcode 0xF. -/
  | reservedF (low : BitVec 28)
deriving DecidableEq, Repr, Inhabited

end Sys2Proof
end

