-- ==== Sys2Proof/Config.lean ====
section
/-! DEFINITION. The parameters of FBSEQ (spec/00_scope.md R6 to R10) and the values that the spec leaves
open. Every open value is an opaque constant: nothing can be proved of it but its type.

A parameter set is a `Params`. The spec says that a model takes the parameters as arguments; `State` carries
them in a field that no step writes (log 1), and a machine right after reset has the set `Config.block`. -/

namespace Sys2Proof

/-- The tuple (W, H, C, R) of one panel variant (R6): visible width and height, RAM columns and rows. -/
structure Geometry where
  width : Nat
  height : Nat
  cols : Nat
  rows : Nat
deriving DecidableEq, Repr, Inhabited

/-- The limits of R6: C a multiple of 8 from 8 to 2048; W, H and R from 1 to 65535. -/
def Geometry.valid (g : Geometry) : Bool :=
  g.cols % 8 == 0 && Nat.ble 8 g.cols && Nat.ble g.cols 2048
    && Nat.ble 1 g.width && Nat.ble g.width 65535
    && Nat.ble 1 g.height && Nat.ble g.height 65535
    && Nat.ble 1 g.rows && Nat.ble g.rows 65535

/-- The command ROM parameters of R8, by the spec's names. -/
structure Rom where
  cmdAnalogBlock : Byte
  cmdDigitalBlock : Byte
  cmdDriverOutput : Byte
  cmdDummyLine : Byte
  cmdGateLine : Byte
  cmdDataEntry : Byte
  cmdRamXWindow : Byte
  cmdRamYWindow : Byte
  cmdVcom : Byte
  cmdSourceVoltage : Byte
  cmdBorder : Byte
  cmdRamXCounter : Byte
  cmdRamYCounter : Byte
  cmdWriteRam : Byte
  cmdWriteRamAlt : Byte
  analogVal : Byte
  digitalVal : Byte
  dummyVal : Byte
  gateVal : Byte
  dataEntryVal : Byte
  vcomVal : Byte
  svRed : Vector Byte 3
  svYellow : Vector Byte 3
  lutRed : Vector Byte 70
  lutYellow : Vector Byte 70
  lutBlack : Vector Byte 70
  borderWhite : Byte
  borderBlack : Byte
  borderAccentRed : Byte
  borderAccentYellow : Byte
deriving DecidableEq, Repr, Inhabited

/-- The 15 command codes that are parameters (R8). -/
def Rom.commandCodes (r : Rom) : List Byte :=
  [r.cmdAnalogBlock, r.cmdDigitalBlock, r.cmdDriverOutput, r.cmdDummyLine, r.cmdGateLine,
   r.cmdDataEntry, r.cmdRamXWindow, r.cmdRamYWindow, r.cmdVcom, r.cmdSourceVoltage,
   r.cmdBorder, r.cmdRamXCounter, r.cmdRamYCounter, r.cmdWriteRam, r.cmdWriteRamAlt]

/-- The constraints of R8, R175 and R177: the command codes and the fixed codes 0x12, 0x32 and 0x20 of R9
are pairwise distinct; the two voltage triples differ; the two accent border bytes differ. -/
def Rom.valid (r : Rom) : Bool :=
  decide (([0x12#8, 0x32#8, 0x20#8] ++ r.commandCodes).Nodup)
    && decide (r.svRed ≠ r.svYellow) && decide (r.borderAccentRed ≠ r.borderAccentYellow)

/-- One parameter set of the block (R6, R8, R10). -/
structure Params where
  /-- (W_0, H_0, C_0, R_0), the matching variant. -/
  matchingGeometry : Geometry
  /-- (W_1, H_1, C_1, R_1), the rotated variant. -/
  rotatedGeometry : Geometry
  rom : Rom
  /-- BUSY_ACTIVE: the busy level that means asserted (R10). -/
  busyActive : Level
  /-- HEIGHT_PARITY: GET_HEIGHT returns the width (R10, R147). -/
  heightParity : Bool
deriving DecidableEq, Repr, Inhabited

/-- All the constraints the spec puts on a parameter set. -/
def Params.valid (p : Params) : Bool :=
  p.matchingGeometry.valid && p.rotatedGeometry.valid && p.rom.valid

/-- Bytes for the ROM of `Params.illustrative`: arbitrary, and no part of any rule. -/
def Rom.illustrative : Rom where
  cmdAnalogBlock := 0xE0
  cmdDigitalBlock := 0xE1
  cmdDriverOutput := 0xE2
  cmdDummyLine := 0xE3
  cmdGateLine := 0xE4
  cmdDataEntry := 0xE5
  cmdRamXWindow := 0xE6
  cmdRamYWindow := 0xE7
  cmdVcom := 0xE8
  cmdSourceVoltage := 0xE9
  cmdBorder := 0xEA
  cmdRamXCounter := 0xEB
  cmdRamYCounter := 0xEC
  cmdWriteRam := 0xED
  cmdWriteRamAlt := 0xEE
  analogVal := 0xA1
  digitalVal := 0xA2
  dummyVal := 0xA3
  gateVal := 0xA4
  dataEntryVal := 0xA5
  vcomVal := 0xA6
  svRed := Vector.replicate 3 0x51
  svYellow := Vector.replicate 3 0x52
  lutRed := Vector.replicate 70 0x61
  lutYellow := Vector.replicate 70 0x62
  lutBlack := Vector.replicate 70 0x63
  borderWhite := 0xB1
  borderBlack := 0xB2
  borderAccentRed := 0xB3
  borderAccentYellow := 0xB4

/-- The illustrative geometries V0 and V1 of D7 with BUSY_ACTIVE = 1 and HEIGHT_PARITY = false (the setting of
spec/95_test_vectors.md). Tests use it, and it shows that a valid set exists; no meaning reads it. -/
def Params.illustrative : Params where
  matchingGeometry := ⟨16, 4, 16, 4⟩
  rotatedGeometry := ⟨10, 4, 16, 10⟩
  rom := Rom.illustrative
  busyActive := .high
  heightParity := false

/-- A parameter set that meets its constraints. -/
structure ValidParams where
  val : Params := Params.illustrative
  ok : val.valid = true := by decide
deriving Inhabited

/-- The block's parameter set: any valid one (R6 to R10; S6 to S8 of 93_implementation_defined.md). Log 1. -/
opaque Config.block : ValidParams

/-- R35, R272: the level of a busy sample is a free input. Argument: the number of free values drawn before.
Log 5. -/
opaque Config.busyLevel : Nat → Level

/-- R271, S10: whether the timer's DLY_DONE arrives at a step. Log 6. -/
opaque Config.delayDone : Nat → Bool

/-- R31, D38: whether the host takes the response word at a step. Log 7. -/
opaque Config.responseTaken : Nat → Bool

/-- R233, S1: VAR after DESTROY is unspecified. Log 4. -/
opaque Config.releasedVariant : Nat → Variant

/-- R233, S1: MODE after DESTROY is unspecified. Log 4. -/
opaque Config.releasedMode : Nat → ColorMode

/-- R233, S1: BORDER after DESTROY is unspecified. Log 4. -/
opaque Config.releasedBorder : Nat → PixelValue

/-- R55, R233, S1: the bytes of P after DESTROY, from index 0 upward, are unspecified. Log 4. -/
opaque Config.releasedPrimary : Nat → List Byte

/-- R55, R233, S1: the bytes of A after DESTROY, from index 0 upward, are unspecified. Log 4. -/
opaque Config.releasedAccent : Nat → List Byte

end Sys2Proof
end

