-- ==== Sys2Proof/WellFormed.lean ====
section
/-! DEFINITION. Which terms of `Instr` stand for a command the host can send. The widths of the operands
are in their types; what is left is the length of a bitmap. -/

namespace Sys2Proof

/-- R90, R140: a DRAW_BITMAP carries exactly `w` bitmap bytes. Every other term is well formed. -/
def Instr.wellFormed : Instr → Bool
  | .configure _ _ => true
  | .destroy => true
  | .setPixel _ _ _ => true
  | .setPixels _ _ _ _ _ => true
  | .drawBitmap _ _ _ w _ bitmap => bitmap.length == w.toNat
  | .setBorder _ => true
  | .getWidth => true
  | .getHeight => true
  | .render => true
  | .getStatus => true
  | .reserved0 _ => true
  | .reservedB _ => true
  | .reservedC _ => true
  | .reservedD _ => true
  | .reservedE _ => true
  | .reservedF _ => true

end Sys2Proof
end

