-- ==== Sys2Proof/Decode.lean ====
section
/-! DEFINITION. Decoding the words of a host command, and the encoder (spec/30_encoding.md R80 to R91, R99).

A command is a list of 32-bit words in the order the command port accepted them. The decoder is total; what
it does not decode it rejects by name. -/

namespace Sys2Proof

/-! ### The header word -/

/-- R80, R81: the opcode of word 0, its bits 31:28. -/
def Opcode.ofWord (w0 : Word) : Opcode :=
  match (w0.extractLsb' 28 4).toNat with
  | 0 => .reserved0
  | 1 => .configure
  | 2 => .destroy
  | 3 => .setPixel
  | 4 => .setPixels
  | 5 => .drawBitmap
  | 6 => .setBorder
  | 7 => .getWidth
  | 8 => .getHeight
  | 9 => .render
  | 10 => .getStatus
  | 11 => .reservedB
  | 12 => .reservedC
  | 13 => .reservedD
  | 14 => .reservedE
  | _ => .reservedF

/-- R81: the four bits of each opcode. -/
def Opcode.code : Opcode → BitVec 4
  | .reserved0 => 0x0
  | .configure => 0x1
  | .destroy => 0x2
  | .setPixel => 0x3
  | .setPixels => 0x4
  | .drawBitmap => 0x5
  | .setBorder => 0x6
  | .getWidth => 0x7
  | .getHeight => 0x8
  | .render => 0x9
  | .getStatus => 0xA
  | .reservedB => 0xB
  | .reservedC => 0xC
  | .reservedD => 0xD
  | .reservedE => 0xE
  | .reservedF => 0xF

/-- R86: the bits of word 0 that must hold fixed values. A reserved opcode fixes its own four bits only, as its
row of opcode_table.json says. -/
def Opcode.maskBits : Opcode → Word
  | .configure => 0xFC3FFFFF
  | .destroy => 0xFFFFFFFF
  | .setPixel => 0xF3FFFFFF
  | .setPixels => 0xF3FFFFFF
  | .drawBitmap => 0xF3FFFFFF
  | .setBorder => 0xF3FFFFFF
  | .getWidth => 0xFFFFFFFF
  | .getHeight => 0xFFFFFFFF
  | .render => 0xFFFFFFFF
  | .getStatus => 0xFFFFFFFF
  | .reserved0 => 0xF0000000
  | .reservedB => 0xF0000000
  | .reservedC => 0xF0000000
  | .reservedD => 0xF0000000
  | .reservedE => 0xF0000000
  | .reservedF => 0xF0000000

/-- R86: the values of the fixed bits. -/
def Opcode.matchBits : Opcode → Word
  | .reserved0 => 0x00000000
  | .configure => 0x10000000
  | .destroy => 0x20000000
  | .setPixel => 0x30000000
  | .setPixels => 0x40000000
  | .drawBitmap => 0x50000000
  | .setBorder => 0x60000000
  | .getWidth => 0x70000000
  | .getHeight => 0x80000000
  | .render => 0x90000000
  | .getStatus => 0xA0000000
  | .reservedB => 0xB0000000
  | .reservedC => 0xC0000000
  | .reservedD => 0xD0000000
  | .reservedE => 0xE0000000
  | .reservedF => 0xF0000000

/-- R86, R89: word 0 has no reserved bit set for its opcode, `(w0 & mask) = match`. -/
def headerMatches (w0 : Word) : Bool :=
  (w0 &&& (Opcode.ofWord w0).maskBits) == (Opcode.ofWord w0).matchBits

/-! ### Fields (R82, R83, R85) -/

/-- pvc = w0[27:26]. -/
def pvField (w0 : Word) : BitVec 2 := w0.extractLsb' 26 2

/-- varc = w0[25:24]. -/
def varField (w0 : Word) : BitVec 2 := w0.extractLsb' 24 2

/-- modec = w0[23:22]. -/
def modeField (w0 : Word) : BitVec 2 := w0.extractLsb' 22 2

/-- The 28 bits below OPC, which a reserved opcode leaves without meaning. -/
def lowField (w0 : Word) : BitVec 28 := w0.extractLsb' 0 28

/-- x = w1[15:0], and w = w2[15:0]. -/
def lowHalf (w : Word) : BitVec 16 := w.extractLsb' 0 16

/-- y = w1[31:16], and h = w2[31:16]. -/
def highHalf (w : Word) : BitVec 16 := w.extractLsb' 16 16

/-- ceil(w / 4): the number of payload words of a DRAW_BITMAP of `w` bytes (R87). -/
def payloadWords (w : Nat) : Nat := (w + 3) / 4

/-- byte_j of R85 and R90: bits [8*(j mod 4)+7 : 8*(j mod 4)] of payload word j div 4. -/
def bitmapByte (payload : List Word) (j : Nat) : Byte :=
  ((payload[j / 4]?).getD 0).extractLsb' (8 * (j % 4)) 8

/-- The `w` bitmap bytes of a payload (R90). The unused high bytes of its last word are ignored. -/
def bitmapBytes (payload : List Word) (w : Nat) : List Byte :=
  (List.range w).map (bitmapByte payload)

/-! ### Command length (R87, R88) -/

/-- N(w0, w2) of R87, from the words that have arrived: none while it is not known. -/
def commandLength : List Word → Option Nat
  | [] => none
  | w0 :: rest =>
    match Opcode.ofWord w0 with
    | .setPixel => some 2
    | .setPixels => some 3
    | .drawBitmap =>
      match rest[1]? with
      | some w2 => some (3 + payloadWords (lowHalf w2).toNat)
      | none => none
    | .reserved0 => some 1
    | .configure => some 1
    | .destroy => some 1
    | .setBorder => some 1
    | .getWidth => some 1
    | .getHeight => some 1
    | .render => some 1
    | .getStatus => some 1
    | .reservedB => some 1
    | .reservedC => some 1
    | .reservedD => some 1
    | .reservedE => some 1
    | .reservedF => some 1

/-- R30, R88: the words that have arrived are a whole command. -/
def commandComplete (ws : List Word) : Bool :=
  match commandLength ws with
  | some n => Nat.ble n ws.length
  | none => false

/-! ### The decoder (R89) -/

/-- Why a list of words is not an instruction. -/
inductive DecodeError where
  /-- There is no word at all. -/
  | noWord
  /-- The command has not arrived in full (R88). -/
  | truncated
  /-- R89, verdict illegal: a defined opcode with a reserved bit of word 0 set. -/
  | reservedBits (opc : Opcode)
deriving DecidableEq, Repr

/-- The instruction of a whole command with a matching header; `rest` is the words after word 0. -/
def decodeFields (w0 : Word) (rest : List Word) : Instr :=
  let w1 := (rest[0]?).getD 0
  let w2 := (rest[1]?).getD 0
  match Opcode.ofWord w0 with
  | .configure => .configure (varField w0) (modeField w0)
  | .destroy => .destroy
  | .setPixel => .setPixel (pvField w0) (lowHalf w1) (highHalf w1)
  | .setPixels => .setPixels (pvField w0) (lowHalf w1) (highHalf w1) (lowHalf w2) (highHalf w2)
  | .drawBitmap =>
    .drawBitmap (pvField w0) (lowHalf w1) (highHalf w1) (lowHalf w2) (highHalf w2)
      (bitmapBytes (rest.drop 2) (lowHalf w2).toNat)
  | .setBorder => .setBorder (pvField w0)
  | .getWidth => .getWidth
  | .getHeight => .getHeight
  | .render => .render
  | .getStatus => .getStatus
  | .reserved0 => .reserved0 (lowField w0)
  | .reservedB => .reservedB (lowField w0)
  | .reservedC => .reservedC (lowField w0)
  | .reservedD => .reservedD (lowField w0)
  | .reservedE => .reservedE (lowField w0)
  | .reservedF => .reservedF (lowField w0)

/-- R88, R89: the first command of `ws` and the words after it. The header is judged once the whole command has
arrived. -/
def decode : List Word → Except DecodeError (Instr × List Word)
  | [] => .error .noWord
  | w0 :: rest =>
    match commandLength (w0 :: rest) with
    | none => .error .truncated
    | some n =>
      if Nat.ble n (w0 :: rest).length then
        if headerMatches w0 then .ok (decodeFields w0 rest, (w0 :: rest).drop n)
        else .error (.reservedBits (Opcode.ofWord w0))
      else .error .truncated

/-! ### The encoder (R99) -/

/-- enc0 of R99: word 0 from its fields, bits 21:0 zero. -/
def encodeHeader (opc : Opcode) (pvc varc modec : BitVec 2) : Word :=
  opc.code ++ pvc ++ varc ++ modec ++ 0#22

/-- A reserved opcode with its 28 low bits. -/
def encodeReserved (opc : Opcode) (low : BitVec 28) : Word := opc.code ++ low

/-- enc1 and enc2 of R99: `(hi << 16) | lo`. -/
def encodeHalves (hi lo : BitVec 16) : Word := hi ++ lo

/-- Byte `j` of a bitmap; a missing byte is 0 (R99). -/
def bitmapAt (bitmap : List Byte) (j : Nat) : Byte := (bitmap[j]?).getD 0

/-- Payload word `k` of R99. -/
def encodePayloadWord (bitmap : List Byte) (k : Nat) : Word :=
  bitmapAt bitmap (4 * k + 3) ++ bitmapAt bitmap (4 * k + 2) ++ bitmapAt bitmap (4 * k + 1)
    ++ bitmapAt bitmap (4 * k)

/-- The payload words of a bitmap of `w` bytes. -/
def encodePayload (bitmap : List Byte) (w : Nat) : List Word :=
  (List.range (payloadWords w)).map (encodePayloadWord bitmap)

/-- The words of a command (R99). -/
def encode : Instr → List Word
  | .configure varc modec => [encodeHeader .configure 0#2 varc modec]
  | .destroy => [encodeHeader .destroy 0#2 0#2 0#2]
  | .setPixel pvc x y => [encodeHeader .setPixel pvc 0#2 0#2, encodeHalves y x]
  | .setPixels pvc x y w h =>
    [encodeHeader .setPixels pvc 0#2 0#2, encodeHalves y x, encodeHalves h w]
  | .drawBitmap pvc x y w h bitmap =>
    encodeHeader .drawBitmap pvc 0#2 0#2 :: encodeHalves y x :: encodeHalves h w
      :: encodePayload bitmap w.toNat
  | .setBorder pvc => [encodeHeader .setBorder pvc 0#2 0#2]
  | .getWidth => [encodeHeader .getWidth 0#2 0#2 0#2]
  | .getHeight => [encodeHeader .getHeight 0#2 0#2 0#2]
  | .render => [encodeHeader .render 0#2 0#2 0#2]
  | .getStatus => [encodeHeader .getStatus 0#2 0#2 0#2]
  | .reserved0 low => [encodeReserved .reserved0 low]
  | .reservedB low => [encodeReserved .reservedB low]
  | .reservedC low => [encodeReserved .reservedC low]
  | .reservedD low => [encodeReserved .reservedD low]
  | .reservedE low => [encodeReserved .reservedE low]
  | .reservedF low => [encodeReserved .reservedF low]

/-! ### Words of the opcode table -/

/-- The `nbits` low bits of `w` as command words, first word lowest, with as many words as the command's length
asks for and every bit above `nbits` zero. -/
def tableWords (nbits w : Nat) : List Word :=
  let bits := w % 2 ^ nbits
  let word := fun k => BitVec.ofNat 32 (bits >>> (32 * k))
  match commandLength [word 0, word 1, word 2] with
  | some n => (List.range n).map word
  | none => [word 0]

/-- The instruction the decoder reads from the bits `w` of a row of spec/opcode_table.json; none where it
rejects them. -/
def decodeTableWord (nbits w : Nat) : Option Instr :=
  match decode (tableWords nbits w) with
  | .ok (i, _) => some i
  | .error _ => none

end Sys2Proof
end

