-- ==== Sys2Proof/Machine/State.lean ====
section
/-! DEFINITION. The state of FBSEQ (spec/10_state.md R20 to R41) and the state right after power-on reset. -/

namespace Sys2Proof.Machine

/-- A plane memory: (index, byte) pairs, indices strictly rising, no byte equal to what an unlisted index
reads as. `Memory.wf` in Ops.lean says so. -/
abbrev Memory := List Host.Cell

/-- The output lines with a latch (R14, R34). -/
inductive Line where
  | cs
  | dc
  | rst
deriving DecidableEq, Repr

/-- The events of the output trace (R14). -/
inductive Event where
  /-- A line is driven to a level. -/
  | pin (line : Line) (level : Level)
  /-- One serial write. -/
  | bytes (data : List Byte)
  /-- A delay of `ms` milliseconds is requested. -/
  | delayReq (ms : Nat)
  /-- The busy input was sampled at a level. -/
  | busySample (level : Level)
deriving DecidableEq, Repr

/-- SEQ (R28): idle, or running with the step pointer `spc` (R22). -/
inductive Seq where
  | idle
  | run (spc : Nat)
deriving DecidableEq, Repr

/-- The kinds of fault (R261). -/
inductive FaultKind where
  | illegalCmd
  | badOperand
  | addr
  | config
  | notConfigured
deriving DecidableEq, Repr

/-- FAULT (R29): one sticky bit per kind. -/
structure FaultBits where
  illegalCmd : Bool
  badOperand : Bool
  addr : Bool
  config : Bool
  notConfigured : Bool
deriving DecidableEq, Repr

/-- The machine. The first fourteen fields are the tuple of R20. The others are the model's own: the parameters
(log 1), what the outputs have carried (log 11), how far the action at `spc` is (log 23), and the other agents'
inputs still to come (logs 5 to 9, 17). -/
structure State where
  /-- CFG (R23): a Display exists. -/
  cfg : Bool
  /-- VAR (R24). -/
  var : Variant
  /-- MODE (R25). -/
  mode : ColorMode
  /-- BORDER (R26). -/
  border : PixelValue
  /-- P (R27, R50): the primary plane. -/
  p : Memory
  /-- A (R27, R51): the accent plane. -/
  a : Memory
  /-- FAULT (R29). -/
  fault : FaultBits
  /-- SEQ (R28). -/
  seq : Seq
  /-- PARSE (R30): the words of the command being assembled. Its length N is `commandLength` of them (log 12). -/
  parse : List Word
  /-- RESP (R31). -/
  resp : Option Word
  /-- DLY (R32): a delay is pending. -/
  dly : Bool
  /-- The CS latch (R34). -/
  cs : Level
  /-- The DC latch (R34). -/
  dc : Level
  /-- The RST latch (R34). -/
  rst : Level
  /-- The parameters of R6 to R10. -/
  params : Params
  /-- The output trace (R14, R274), oldest event first. -/
  trace : List Event
  /-- The response words the host has taken, oldest first. -/
  responses : List Word
  /-- How many events the action at `spc` has emitted and has still to follow with another; 0 between actions. A
  power-on reset can land between two events of one transaction (R302; log 23). -/
  sent : Nat
  /-- The words the host has offered on CMD and FBSEQ has not accepted, next one first. -/
  words : List Word
  /-- For each coming step that finds RESP full: does the host take it? Then free values. -/
  takes : List Bool
  /-- For each coming step that finds DLY = 1: does DLY_DONE arrive? Then free values. -/
  strobes : List Bool
  /-- The levels of the coming busy samples. Then free values. -/
  levels : List Level
  /-- For each coming step: is power-on reset asserted? Then it is not. -/
  resetLine : List Bool
  /-- How many free values have been drawn. -/
  draws : Nat
deriving DecidableEq, Repr

/-- Why the machine stops. It has no constructor: no behaviour that the spec gives FBSEQ stops it. The spec's own
faults are the sticky bits of FAULT, and a command that sets one ends in a next state (R239, R260; log 13). -/
inductive Fault where
deriving DecidableEq, Repr

/-- Why a command has no meaning. -/
inductive Refusal where
  /-- Raised by an arm of `exec` whose instruction has no meaning yet; no arm raises it. It is safe: the model
  stops where the hardware goes on. -/
  | notModelled (mnemonic : String)
deriving DecidableEq, Repr

/-- What a step or a command answers. -/
abbrev Result := Host.Outcome State Fault Refusal

/-- FAULT with every bit clear. -/
def FaultBits.none : FaultBits := ⟨false, false, false, false, false⟩

/-- The state right after power-on reset: the column "after power-on reset" of R40. VAR, MODE, BORDER, P and A are
unspecified there; the values here are the model's (DESIGN CHOICE, unsafe: logs 2 and 3). The model's own fields
are empty (logs 5 to 9, 11, 17); the parameters are any valid set (log 1). -/
def State.reset : State where
  cfg := false
  var := .matching
  mode := .bwr
  border := .white
  p := []
  a := []
  fault := FaultBits.none
  seq := .idle
  parse := []
  resp := Option.none
  dly := false
  cs := .high
  dc := .low
  rst := .high
  params := Config.block.val
  trace := []
  responses := []
  sent := 0
  words := []
  takes := []
  strobes := []
  levels := []
  resetLine := []
  draws := 0

end Sys2Proof.Machine
end

