-- ==== Sys2Proof/Machine/Operands.lean ====
section
/-! DEFINITION. Operand forms: the two-bit codes of R84, bytes of a 16-bit value (R12), and the pixels a rectangle or
a bitmap names (R135, R140). -/

namespace Sys2Proof.Machine

/-- decodePV (R84): none for the reserved code 0b11. -/
def decodePV (pvc : BitVec 2) : Option PixelValue :=
  if pvc = 0b00#2 then some .white
  else if pvc = 0b01#2 then some .black
  else if pvc = 0b10#2 then some .accent
  else none

/-- The variant of a two-bit code (R84): none for the unknown codes 0b10 and 0b11. -/
def decodeVariant (varc : BitVec 2) : Option Variant :=
  if varc = 0b00#2 then some .matching
  else if varc = 0b01#2 then some .rotated
  else none

/-- decodeMODE (R84): none for the reserved code 0b11. -/
def decodeMode (modec : BitVec 2) : Option ColorMode :=
  if modec = 0b00#2 then some .bwr
  else if modec = 0b01#2 then some .bwy
  else if modec = 0b10#2 then some .bw
  else none

/-- The two-bit code of a PixelValue (R84). -/
def pixelCode : PixelValue → BitVec 2
  | .white => 0b00
  | .black => 0b01
  | .accent => 0b10

/-- The two-bit code of a variant (R24, R84). -/
def variantCode : Variant → BitVec 2
  | .matching => 0b00
  | .rotated => 0b01

/-- The two-bit code of a ColorMode (R84). -/
def modeCode : ColorMode → BitVec 2
  | .bwr => 0b00
  | .bwy => 0b01
  | .bw => 0b10

/-- lo8 (R12). -/
def lo8 (v : Nat) : Byte := BitVec.ofNat 8 (v % 256)

/-- hi8 (R12). -/
def hi8 (v : Nat) : Byte := BitVec.ofNat 8 (v / 256 % 256)

/-- The pixels of the rectangle [x, x+w) × [y, y+h) (R135). The sums do not wrap (R12, D8). -/
def rectanglePixels (x y w h : Nat) : List (Nat × Nat) :=
  (List.range w).flatMap fun i => (List.range h).map fun j => (x + i, y + j)

/-- Bit `k` of bitmap column `col` is set (R90): bit 0 is row 0. -/
def bitmapBit (bitmap : List Byte) (col k : Nat) : Bool := (bitmapAt bitmap col).getLsbD k

/-- The pixels that a bitmap draws: its set bits in columns below `w` and rows below `h` (R140). -/
def bitmapPixels (x y w h : Nat) (bitmap : List Byte) : List (Nat × Nat) :=
  (List.range w).flatMap fun col =>
    ((List.range h).filter (bitmapBit bitmap col)).map fun k => (x + col, y + k)

end Sys2Proof.Machine
end

