-- ==== Sys2Proof/Machine/Flags.lean ====
section
/-! DEFINITION. The fault bits (R29, R261) and the status word (R41, R237). FBSEQ has no condition codes. -/

namespace Sys2Proof.Machine

/-- FAULT with the bit of one kind set. A bit already set stays set (R261). -/
def FaultBits.set (k : FaultKind) (f : FaultBits) : FaultBits :=
  match k with
  | .illegalCmd => { f with illegalCmd := true }
  | .badOperand => { f with badOperand := true }
  | .addr => { f with addr := true }
  | .config => { f with config := true }
  | .notConfigured => { f with notConfigured := true }

/-- The bit of one kind. -/
def FaultBits.has (k : FaultKind) (f : FaultBits) : Bool :=
  match k with
  | .illegalCmd => f.illegalCmd
  | .badOperand => f.badOperand
  | .addr => f.addr
  | .config => f.config
  | .notConfigured => f.notConfigured

/-- The status-word position of a kind's bit, which is its cause code (R261). -/
def FaultKind.statusBit : FaultKind → Nat
  | .illegalCmd => 8
  | .badOperand => 9
  | .addr => 10
  | .config => 11
  | .notConfigured => 12

/-- One bit as a word, shifted to its position. -/
def bitWord (b : Bool) (n : Nat) : Word := (BitVec.ofBool b).setWidth 32 <<< n

/-- A two-bit code as a word, shifted to its position. -/
def codeWord (c : BitVec 2) (n : Nat) : Word := c.setWidth 32 <<< n

/-- The FAULT part of the status word, bits 12:8 (R41). -/
def FaultBits.word (f : FaultBits) : Word :=
  bitWord f.illegalCmd 8 ||| bitWord f.badOperand 9 ||| bitWord f.addr 10 ||| bitWord f.config 11
    ||| bitWord f.notConfigured 12

/-- The status word of R41: CFG, then VAR, MODE and BORDER while CFG = 1, then the fault bits. -/
def State.statusWord (s : State) : Word :=
  if s.cfg then
    bitWord true 0 ||| codeWord (variantCode s.var) 1 ||| codeWord (modeCode s.mode) 3
      ||| codeWord (pixelCode s.border) 5 ||| s.fault.word
  else s.fault.word

end Sys2Proof.Machine
end

