-- ==== Sys2Proof/Machine/Ops.lean ====
section
/-! DEFINITION. The named operations over State: the plane memories, raising and flagging a fault, responding,
emitting an event, creating and releasing a Display, and power-on reset.

FBSEQ takes no exception in the sense of a trap: it has no saved state, no vector and no return (R260, R270).
What stands for it is `State.raise`, the one operation that records a fault and abandons the command, with
`State.flag` beside it, which records F_ADDR and lets the command go on (R15). -/

namespace Sys2Proof.Machine

/-! ### Plane memories (R13, R50, R51) -/

/-- What an unlisted index reads as: 0x00, to which CONFIGURE sets every byte (R231). -/
def Memory.unlisted : Byte := 0x00#8

/-- PlaneRead (R13). -/
def Memory.read : Memory → Nat → Byte
  | [], _ => Memory.unlisted
  | (k, b) :: rest, i => if i = k then b else Memory.read rest i

/-- The listing of one byte: nothing, where the byte is what an unlisted index reads as. -/
def Memory.entry (i : Nat) (v : Byte) : Memory := if v = Memory.unlisted then [] else [(i, v)]

/-- PlaneWrite (R13). It keeps the canonical form. -/
def Memory.write : Memory → Nat → Byte → Memory
  | [], i, v => Memory.entry i v
  | (k, b) :: rest, i, v =>
    if i < k then Memory.entry i v ++ (k, b) :: rest
    else if i = k then Memory.entry i v ++ rest
    else (k, b) :: Memory.write rest i v

/-- The canonical form from index `lo` up: indices strictly rising from `lo`, no listed byte 0x00. -/
def Memory.wfFrom : Nat → Memory → Bool
  | _, [] => true
  | lo, (k, b) :: rest => Nat.ble lo k && b != Memory.unlisted && Memory.wfFrom (k + 1) rest

/-- The canonical form of a plane memory. -/
def Memory.wf (m : Memory) : Bool := Memory.wfFrom 0 m

/-- The plane that holds the given bytes from index `i` up. -/
def Memory.ofBytesFrom : Nat → List Byte → Memory
  | _, [] => []
  | i, b :: rest => Memory.entry i b ++ Memory.ofBytesFrom (i + 1) rest

/-- The plane that holds the given bytes from index 0 up. -/
def Memory.ofBytes (bytes : List Byte) : Memory := Memory.ofBytesFrom 0 bytes

/-- The first `n` bytes of a plane in ascending index order (R59). -/
def Memory.firstBytes (m : Memory) (n : Nat) : List Byte := (List.range n).map m.read

/-- Every listed index is at least `lo` and below `hi`. -/
def Memory.within (lo hi : Nat) (m : Memory) : Bool :=
  m.all fun c => Nat.ble lo c.1 && Nat.blt c.1 hi

/-! ### Faults and responses (R15, R238) -/

/-- `raise F` (R15): set the sticky bit. The command that raises ends with this state. -/
def State.raise (k : FaultKind) (s : State) : State := { s with fault := s.fault.set k }

/-- `flag F_ADDR` (R15, R124): set the sticky bit; the command goes on from this state. -/
def State.flag (s : State) : State := { s with fault := s.fault.set .addr }

/-- `Respond(w)` (R14). -/
def State.respond (w : Word) (s : State) : State := { s with resp := some w }

/-- R238: OPC 0x7, 0x8 and 0xA produce a response word each time they run. -/
def respondsAlways : Opcode → Bool
  | .getWidth => true
  | .getHeight => true
  | .getStatus => true
  | .reserved0 => false
  | .configure => false
  | .destroy => false
  | .setPixel => false
  | .setPixels => false
  | .drawBitmap => false
  | .setBorder => false
  | .render => false
  | .reservedB => false
  | .reservedC => false
  | .reservedD => false
  | .reservedE => false
  | .reservedF => false

/-- The effect of an illegal command (R262): F_ILLEGAL_CMD, and a zero response for OPC 0x7, 0x8 and 0xA. -/
def State.rejectCommand (opc : Opcode) (s : State) : State :=
  if respondsAlways opc then (s.respond 0x00000000#32).raise .illegalCmd else s.raise .illegalCmd

/-! ### Geometry (R7, R120, R121) -/

/-- `dims(v)` (R120). -/
def dims (p : Params) : Variant → Geometry
  | .matching => p.matchingGeometry
  | .rotated => p.rotatedGeometry

/-- The geometry of the latched variant. -/
def State.geometry (s : State) : Geometry := dims s.params s.var

/-- L = (C / 8) * R (R7, R50). -/
def planeLength (g : Geometry) : Nat := g.cols / 8 * g.rows

/-- BPR = L / R (R7). -/
def bytesPerRow (g : Geometry) : Nat := planeLength g / g.rows

/-- ROT_v (R121). -/
def rotates : Variant → Bool
  | .matching => false
  | .rotated => true

/-! ### The Display (R231, R233) -/

/-- A new Display (R231): VAR and MODE latched, BORDER white, both planes all 0x00, CFG = 1. -/
def State.createDisplay (v : Variant) (m : ColorMode) (s : State) : State :=
  { s with cfg := true, var := v, mode := m, border := .white, p := [], a := [] }

/-- The Display released (R233, R55): CFG = 0, and VAR, MODE, BORDER, P and A hold free values (log 4). -/
def State.releaseDisplay (s : State) : State :=
  { s with
    cfg := false
    var := Config.releasedVariant s.draws
    mode := Config.releasedMode s.draws
    border := Config.releasedBorder s.draws
    p := Memory.ofBytes (Config.releasedPrimary s.draws)
    a := Memory.ofBytes (Config.releasedAccent s.draws)
    draws := s.draws + 1 }

/-- BORDER written (R235). -/
def State.setBorder (v : PixelValue) (s : State) : State := { s with border := v }

/-! ### Output events (R14, R34, R95) -/

/-- What an event leaves in the latch of a line that held `old`. -/
def Event.latch (line : Line) (e : Event) (old : Level) : Level :=
  match e with
  | .pin l v => if l = line then v else old
  | .bytes _ => old
  | .delayReq _ => old
  | .busySample _ => old

/-- `Emit(e)` (R14). A `Pin` event also updates its latch (R95). -/
def State.emit (e : Event) (s : State) : State :=
  { s with
    trace := s.trace ++ [e]
    cs := e.latch .cs s.cs
    dc := e.latch .dc s.dc
    rst := e.latch .rst s.rst }

/-- SEQ written. -/
def State.setSeq (q : Seq) (s : State) : State := { s with seq := q }

/-- The count of events sent by the action in progress, written (log 23). -/
def State.setSent (n : Nat) (s : State) : State := { s with sent := n }

/-- DLY written. -/
def State.setDly (b : Bool) (s : State) : State := { s with dly := b }

/-! ### Inputs from the other agents (R271, R272, R31; logs 5 to 7, 9) -/

/-- One busy level from the panel: the next of its script, then free values. -/
def State.drawLevel (s : State) : Level × State :=
  match s.levels with
  | l :: rest => (l, { s with levels := rest })
  | [] => (Config.busyLevel s.draws, { s with draws := s.draws + 1 })

/-- Whether DLY_DONE arrives at this step: the next of the timer's script, then free values. -/
def State.drawStrobe (s : State) : Bool × State :=
  match s.strobes with
  | b :: rest => (b, { s with strobes := rest })
  | [] => (Config.delayDone s.draws, { s with draws := s.draws + 1 })

/-- Whether the host takes the response at this step: the next of its script, then free values. -/
def State.drawTake (s : State) : Bool × State :=
  match s.takes with
  | b :: rest => (b, { s with takes := rest })
  | [] => (Config.responseTaken s.draws, { s with draws := s.draws + 1 })

/-- Whether power-on reset is asserted at this step: the next of its script, then never. -/
def State.resetAsserted (s : State) : Bool := s.resetLine.headD false

/-- The state with this step's entry of the reset script used up. -/
def State.tickReset (s : State) : State := { s with resetLine := s.resetLine.tail }

/-- `SampleBusy()` (R14): the level read, with `BusySample(level)` emitted. -/
def State.sampleBusy (s : State) : Level × State :=
  (s.drawLevel.1, s.drawLevel.2.emit (.busySample s.drawLevel.1))

/-- The host takes the response word `w` (R31). -/
def State.takeResponse (w : Word) (s : State) : State :=
  { s with resp := none, responses := s.responses ++ [w] }

/-! ### Power-on reset (R290) -/

/-- Power-on reset: every state element of R20 takes its value of R40, with no event emitted. The model's own fields
stay as they are: the parameters, what the outputs have carried, and the other agents' inputs (log 9). -/
def State.powerOn (s : State) : State :=
  { State.reset with
    params := s.params
    trace := s.trace
    responses := s.responses
    words := s.words
    takes := s.takes
    strobes := s.strobes
    levels := s.levels
    resetLine := s.resetLine
    draws := s.draws }

end Sys2Proof.Machine
end

