-- ==== Sys2Proof/Machine/Control.lean ====
section
/-! DEFINITION. CONFIGURE, DESTROY, SET_BORDER and GET_STATUS (spec/42_host_control.md). -/

namespace Sys2Proof.Machine

/-- CONFIGURE (R231). -/
def execConfigure (varc modec : BitVec 2) (s : State) : Result :=
  match decodeVariant varc with
  | none => .next (s.raise .config)
  | some v =>
    match decodeMode modec with
    | none => .next (s.raise .config)
    | some m => .next (s.createDisplay v m)

/-- DESTROY (R233). -/
def execDestroy (s : State) : Result :=
  if s.cfg then .next s.releaseDisplay else .next (s.raise .notConfigured)

/-- SET_BORDER (R235). -/
def execSetBorder (pvc : BitVec 2) (s : State) : Result :=
  if s.cfg then
    match decodePV pvc with
    | some v => .next (s.setBorder v)
    | none => .next (s.raise .badOperand)
  else .next (s.raise .notConfigured)

/-- GET_STATUS (R237): legal while CFG = 0. -/
def execGetStatus (s : State) : Result := .next (s.respond s.statusWord)

end Sys2Proof.Machine
end

