-- ==== Sys2Proof/Machine/Pixel.lean ====
section
/-! DEFINITION. The bounds check, the address translator, the plane encoding and WritePixel
(spec/40_framebuffer.md R122 to R126), through which every pixel command writes. -/

namespace Sys2Proof.Machine

/-- R122: a pixel write is accepted when x ≤ W and y ≤ H. -/
def inBounds (g : Geometry) (x y : Nat) : Bool := Nat.ble x g.width && Nat.ble y g.height

/-- The RAM row of R123: the original x in the rotated variant, else the original y. -/
def ramRow (v : Variant) (x y : Nat) : Nat := if rotates v then x else y

/-- The RAM column of R123, over the integers: W - 1 - y in the rotated variant, else x. -/
def ramCol (v : Variant) (g : Geometry) (x y : Nat) : Int :=
  if rotates v then (g.width : Int) - 1 - (y : Int) else (x : Int)

/-- The byte index of R123 for a row and a column, with its fixed `+ 1`. -/
def byteIndex (g : Geometry) (row col : Nat) : Nat := col / 8 + 1 + row * bytesPerRow g

/-- The bit index of R123, most significant bit first. -/
def bitIndex (col : Nat) : Nat := 7 - col % 8

/-- The translator T (R123) with the index check of R124: the byte index and the bit index, or none for ADDR_ERR. -/
def translator (v : Variant) (g : Geometry) (x y : Nat) : Option (Nat × Nat) :=
  let col := ramCol v g x y
  if col < 0 then none
  else
    let idx := byteIndex g (ramRow v x y) col.toNat
    if planeLength g ≤ idx then none else some (idx, bitIndex col.toNat)

/-- The primary-plane bit of ENC (R125). -/
def encPrimary : PixelValue → Bool
  | .white => true
  | .black => false
  | .accent => true

/-- The accent-plane bit of ENC (R125). -/
def encAccent : PixelValue → Bool
  | .white => false
  | .black => false
  | .accent => true

/-- A byte with the bits of the mask set or cleared (R126). -/
def maskedByte (set : Bool) (old mask : Byte) : Byte := if set then old ||| mask else old &&& ~~~mask

/-- One plane with bit `bit` of byte `idx` written (R126). -/
def Memory.writeBit (m : Memory) (idx bit : Nat) (set : Bool) : Memory :=
  m.write idx (maskedByte set (m.read idx) (1#8 <<< bit))

/-- Both planes written at one bit, in one step (R63, R126). -/
def State.writePlanes (idx bit : Nat) (v : PixelValue) (s : State) : State :=
  { s with p := s.p.writeBit idx bit (encPrimary v), a := s.a.writeBit idx bit (encAccent v) }

/-- WritePixel (R126). -/
def State.writePixel (v : PixelValue) (x y : Nat) (s : State) : State :=
  if inBounds s.geometry x y then
    match translator s.var s.geometry x y with
    | none => s.flag
    | some (idx, bit) => s.writePlanes idx bit v
  else s

/-- The pixel (x, y) is accepted (R122) and T gives bit `k` of byte `i` for it (R123). -/
def State.lands (s : State) (x y i k : Nat) : Prop :=
  (x ≤ s.geometry.width ∧ y ≤ s.geometry.height) ∧ translator s.var s.geometry x y = some (i, k)

/-- The pixel (x, y) is accepted (R122) and T gives ADDR_ERR for it (R124). -/
def State.misses (s : State) (x y : Nat) : Prop :=
  (x ≤ s.geometry.width ∧ y ≤ s.geometry.height) ∧ translator s.var s.geometry x y = none

/-- WritePixel at each of a list of pixels (R135, R140). -/
def State.paint (v : PixelValue) : List (Nat × Nat) → State → State
  | [], s => s
  | (x, y) :: rest, s => State.paint v rest (s.writePixel v x y)

end Sys2Proof.Machine
end

