-- ==== Sys2Proof/Machine/Framebuffer.lean ====
section
/-! DEFINITION. SET_PIXEL, SET_PIXELS, DRAW_BITMAP, GET_WIDTH and GET_HEIGHT (spec/40_framebuffer.md). -/

namespace Sys2Proof.Machine

/-- SET_PIXEL (R130). -/
def execSetPixel (pvc : BitVec 2) (x y : BitVec 16) (s : State) : Result :=
  if s.cfg then
    match decodePV pvc with
    | some v => .next (s.writePixel v x.toNat y.toNat)
    | none => .next (s.raise .badOperand)
  else .next (s.raise .notConfigured)

/-- SET_PIXELS (R135). -/
def execSetPixels (pvc : BitVec 2) (x y w h : BitVec 16) (s : State) : Result :=
  if s.cfg then
    match decodePV pvc with
    | some v => .next (s.paint v (rectanglePixels x.toNat y.toNat w.toNat h.toNat))
    | none => .next (s.raise .badOperand)
  else .next (s.raise .notConfigured)

/-- DRAW_BITMAP (R140): H > 8 is refused with F_BAD_OPERAND after the PV check (R269). -/
def execDrawBitmap (pvc : BitVec 2) (x y w h : BitVec 16) (bitmap : List Byte) (s : State) : Result :=
  if s.cfg then
    match decodePV pvc with
    | some v =>
      if 8 < h.toNat then .next (s.raise .badOperand)
      else .next (s.paint v (bitmapPixels x.toNat y.toNat w.toNat h.toNat bitmap))
    | none => .next (s.raise .badOperand)
  else .next (s.raise .notConfigured)

/-- GET_WIDTH (R145). -/
def execGetWidth (s : State) : Result :=
  if s.cfg then .next (s.respond (BitVec.ofNat 32 s.geometry.width))
  else .next ((s.respond 0x00000000#32).raise .notConfigured)

/-- GET_HEIGHT (R147): the height, or the width under HEIGHT_PARITY. -/
def execGetHeight (s : State) : Result :=
  if s.cfg then
    if s.params.heightParity then .next (s.respond (BitVec.ofNat 32 s.geometry.width))
    else .next (s.respond (BitVec.ofNat 32 s.geometry.height))
  else .next ((s.respond 0x00000000#32).raise .notConfigured)

end Sys2Proof.Machine
end

