-- ==== Sys2Proof/Machine/Protocol.lean ====
section
/-! DEFINITION. RENDER and the protocol sequencer (spec/41_protocol.md; the command set of spec/30_encoding.md R97 and
its framing R96). -/

namespace Sys2Proof.Machine

/-- The transaction kinds of R97. -/
inductive TxName where
  | swReset
  | analogBlock
  | digitalBlock
  | driverOutput
  | dummyLine
  | gateLine
  | dataEntry
  | ramXWindow
  | ramYWindow
  | vcom
  | sourceVoltage
  | writeLut
  | border
  | ramXCounter
  | ramYCounter
  | writeRam
  | writeRamAlt
  | activationCfg
  | masterActivate
deriving DecidableEq, Repr

/-- The action kinds of RENDER_SEQ (R171). -/
inductive Action where
  | pin (line : Line) (level : Level)
  | delay (ms : Nat)
  | tx (name : TxName)
  | sync
deriving DecidableEq, Repr

/-! ### The command set (R97) -/

/-- The command byte of each transaction: the fixed codes of R9, the others from the ROM of R8. -/
def commandByte (r : Rom) : TxName → Byte
  | .swReset => 0x12
  | .analogBlock => r.cmdAnalogBlock
  | .digitalBlock => r.cmdDigitalBlock
  | .driverOutput => r.cmdDriverOutput
  | .dummyLine => r.cmdDummyLine
  | .gateLine => r.cmdGateLine
  | .dataEntry => r.cmdDataEntry
  | .ramXWindow => r.cmdRamXWindow
  | .ramYWindow => r.cmdRamYWindow
  | .vcom => r.cmdVcom
  | .sourceVoltage => r.cmdSourceVoltage
  | .writeLut => 0x32
  | .border => r.cmdBorder
  | .ramXCounter => r.cmdRamXCounter
  | .ramYCounter => r.cmdRamYCounter
  | .writeRam => r.cmdWriteRam
  | .writeRamAlt => r.cmdWriteRamAlt
  | .activationCfg => 0x20
  | .masterActivate => 0x20

/-- The source-voltage triple of a mode (R175): BW has none. -/
def sourceVoltage (r : Rom) : ColorMode → List Byte
  | .bwr => r.svRed.toList
  | .bwy => r.svYellow.toList
  | .bw => []

/-- LUT(MODE) (R176). -/
def lutBytes (r : Rom) : ColorMode → List Byte
  | .bwr => r.lutRed.toList
  | .bwy => r.lutYellow.toList
  | .bw => r.lutBlack.toList

/-- The border byte of a border value and a mode (R177): none for (ACCENT, BW). -/
def borderByte (r : Rom) : PixelValue → ColorMode → Option Byte
  | .white, _ => some r.borderWhite
  | .black, _ => some r.borderBlack
  | .accent, .bwr => some r.borderAccentRed
  | .accent, .bwy => some r.borderAccentYellow
  | .accent, .bw => none

/-- The payload of each transaction (R97), from the latched variant, mode and border and from the planes. -/
def State.txPayload (s : State) : TxName → List Byte
  | .swReset => []
  | .analogBlock => [s.params.rom.analogVal]
  | .digitalBlock => [s.params.rom.digitalVal]
  | .driverOutput => [lo8 (s.geometry.rows - 1), hi8 (s.geometry.rows - 1), 0x00]
  | .dummyLine => [s.params.rom.dummyVal]
  | .gateLine => [s.params.rom.gateVal]
  | .dataEntry => [s.params.rom.dataEntryVal]
  | .ramXWindow => [0x00, lo8 (s.geometry.cols / 8 - 1)]
  | .ramYWindow => [0x00, 0x00, lo8 (s.geometry.rows - 1), hi8 (s.geometry.rows - 1)]
  | .vcom => [s.params.rom.vcomVal]
  | .sourceVoltage => sourceVoltage s.params.rom s.mode
  | .writeLut => lutBytes s.params.rom s.mode
  | .border => (borderByte s.params.rom s.border s.mode).toList
  | .ramXCounter => [0x00]
  | .ramYCounter => [0x00, 0x00]
  | .writeRam => s.p.firstBytes (planeLength s.geometry - 1)
  | .writeRamAlt => s.a.firstBytes (planeLength s.geometry - 1)
  | .activationCfg => [0xC7]
  | .masterActivate => []

/-- The data phase of a transaction (R96): nothing where there is no data. -/
def dataPhase : List Byte → List Event
  | [] => []
  | b :: rest => [.pin .dc .high, .bytes (b :: rest)]

/-- The framing of `Tx(c, d)` (R96). -/
def txEvents (c : Byte) (d : List Byte) : List Event :=
  [.pin .cs .low, .pin .dc .low, .bytes [c]] ++ dataPhase d ++ [.pin .cs .high]

/-- The events of a named transaction in a state. -/
def State.transaction (s : State) (n : TxName) : List Event :=
  txEvents (commandByte s.params.rom n) (s.txPayload n)

/-! ### The render sequence (R172) -/

/-- SV_ACTIONS (R175): BW sends no voltage command. -/
def svActions : ColorMode → List Action
  | .bwr => [.tx .sourceVoltage]
  | .bwy => [.tx .sourceVoltage]
  | .bw => []

/-- BORDER_ACTIONS (R177): (ACCENT, BW) sends no border command. -/
def borderActions : PixelValue → ColorMode → List Action
  | .white, _ => [.tx .border]
  | .black, _ => [.tx .border]
  | .accent, .bwr => [.tx .border]
  | .accent, .bwy => [.tx .border]
  | .accent, .bw => []

/-- The fourteen steps of R172, each with its actions. -/
def renderSteps (m : ColorMode) (b : PixelValue) : List (Nat × List Action) :=
  [(1, [.pin .rst .low, .delay 500, .pin .rst .high, .delay 500]),
   (2, [.tx .swReset, .delay 1000, .sync]),
   (3, [.tx .analogBlock, .tx .digitalBlock]),
   (4, [.tx .driverOutput]),
   (5, [.tx .dummyLine, .tx .gateLine]),
   (6, [.tx .dataEntry]),
   (7, [.tx .ramXWindow, .tx .ramYWindow]),
   (8, [.tx .vcom]),
   (9, svActions m ++ [.tx .writeLut]),
   (10, borderActions b m),
   (11, [.tx .ramXCounter, .tx .ramYCounter, .tx .writeRam, .sync]),
   (12, [.tx .ramXCounter, .tx .ramYCounter, .tx .writeRamAlt]),
   (13, [.sync]),
   (14, [.tx .activationCfg, .tx .masterActivate])]

/-- RENDER_SEQ (R172). Its other inputs, VAR and the planes, enter in the payloads. -/
def renderSeq (m : ColorMode) (b : PixelValue) : List Action := (renderSteps m b).flatMap Prod.snd

/-- RENDER_SEQ of the latched mode and border. Nothing changes them while it runs (R173; log 19). -/
def State.renderSeq (s : State) : List Action := Sys2Proof.Machine.renderSeq s.mode s.border

/-! ### The sequencer (R22, R28, R32, R171, R180) -/

/-- The action at `spc` is complete: the step pointer moves on (R22), and the next action has emitted nothing. -/
def State.completeAction (spc : Nat) (s : State) : State := (s.setSent 0).setSeq (.run (spc + 1))

/-- One step of a transaction (R96): its next event, and with its last one the end of the action. -/
def State.sendNext (spc : Nat) (n : TxName) (s : State) : State :=
  match (s.transaction n).drop s.sent with
  | [] => s.completeAction spc
  | [e] => (s.emit e).completeAction spc
  | e :: _ :: _ => (s.emit e).setSent (s.sent + 1)

/-- One step of the Sync loop (R180): a sample, which ends the loop unless it is asserted; after an asserted sample,
a delay of 10 ms. -/
def State.syncPass (spc : Nat) (s : State) : State :=
  if s.sent = 0 then
    if s.sampleBusy.1 = s.params.busyActive then s.sampleBusy.2.setSent 1
    else s.sampleBusy.2.completeAction spc
  else ((s.emit (.delayReq 10)).setDly true).setSent 0

/-- `perform` (R170, R171) for the action at `spc`, one event a step (log 23). A delay completes later, when DLY_DONE
arrives. -/
def State.perform (spc : Nat) (act : Action) (s : State) : State :=
  match act with
  | .pin l v => (s.emit (.pin l v)).completeAction spc
  | .delay ms => (s.emit (.delayReq ms)).setDly true
  | .tx n => s.sendNext spc n
  | .sync => s.syncPass spc

/-- Where the step pointer goes when a delay ends: a Delay action is complete (R171); a Sync polls again (R180). -/
def afterDelay (spc : Nat) : Option Action → Nat
  | some (.delay _) => spc + 1
  | some (.pin _ _) => spc
  | some (.tx _) => spc
  | some .sync => spc
  | none => spc

/-- A step with DLY = 1 (R32, R271): the sequencer takes no step until DLY_DONE arrives, which clears DLY. -/
def State.awaitDelay (spc : Nat) (s : State) : State :=
  if s.drawStrobe.1 then
    (s.drawStrobe.2.setDly false).setSeq (.run (afterDelay spc (s.renderSeq[spc]?)))
  else s.drawStrobe.2

/-- One step of the sequencer in RUN(spc): await a pending delay, perform the next event, or end the render
(R22, R184). -/
def State.sequencerStep (spc : Nat) (s : State) : State :=
  if s.dly then s.awaitDelay spc
  else
    match s.renderSeq[spc]? with
    | some act => s.perform spc act
    | none => s.setSeq .idle

/-- RENDER (R170): SEQ becomes RUN(0), and the sequencer does the rest. -/
def execRender (s : State) : Result :=
  if s.cfg then .next (s.setSeq (.run 0)) else .next (s.raise .notConfigured)

/-! ### Phase labels (R39, R185): names for ranges of `spc`, read by nothing -/

/-- The source's protocol states. -/
inductive Phase where
  | uninitialized
  | reset
  | configured
  | transferring
  | activating
  | ready
deriving DecidableEq, Repr

/-- The label of a step's actions (R185). -/
def phaseOfStep (n : Nat) : Phase :=
  if n ≤ 2 then .reset
  else if n ≤ 10 then .configured
  else if n ≤ 12 then .transferring
  else .activating

/-- The labels of all actions in order. -/
def actionPhases (m : ColorMode) (b : PixelValue) : List Phase :=
  (renderSteps m b).flatMap fun st => st.2.map fun _ => phaseOfStep st.1

/-- The label of a running render (R185): `uninitialized` before the first action, `ready` after the last. -/
def phaseAt (m : ColorMode) (b : PixelValue) (spc : Nat) : Phase :=
  if spc = 0 then .uninitialized else ((actionPhases m b)[spc]?).getD .ready

end Sys2Proof.Machine
end

