-- ==== Sys2Proof/Machine/Reserved.lean ====
section
/-! DEFINITION. The six reserved opcodes (spec/60_exceptions.md R262): one word, F_ILLEGAL_CMD, no response. -/

namespace Sys2Proof.Machine

/-- OPC 0x0 (R262). -/
def execReserved0 (_low : BitVec 28) (s : State) : Result := .next (s.rejectCommand .reserved0)

/-- OPC 0xB (R262). -/
def execReservedB (_low : BitVec 28) (s : State) : Result := .next (s.rejectCommand .reservedB)

/-- OPC 0xC (R262). -/
def execReservedC (_low : BitVec 28) (s : State) : Result := .next (s.rejectCommand .reservedC)

/-- OPC 0xD (R262). -/
def execReservedD (_low : BitVec 28) (s : State) : Result := .next (s.rejectCommand .reservedD)

/-- OPC 0xE (R262). -/
def execReservedE (_low : BitVec 28) (s : State) : Result := .next (s.rejectCommand .reservedE)

/-- OPC 0xF (R262). -/
def execReservedF (_low : BitVec 28) (s : State) : Result := .next (s.rejectCommand .reservedF)

end Sys2Proof.Machine
end

