-- ==== Sys2Proof/Machine/Dispatch.lean ====
section
/-! DEFINITION. The meaning of each command: one arm per constructor of `Instr`. -/

namespace Sys2Proof.Machine

/-- The effect of a command that has arrived in full and decodes (R30, R63). -/
def exec (i : Instr) (s : State) : Host.Outcome State Fault Refusal :=
  match i with
  | .configure varc modec => Sys2Proof.Machine.execConfigure varc modec s
  | .destroy => Sys2Proof.Machine.execDestroy s
  | .setPixel pvc x y => Sys2Proof.Machine.execSetPixel pvc x y s
  | .setPixels pvc x y w h => Sys2Proof.Machine.execSetPixels pvc x y w h s
  | .drawBitmap pvc x y w h bitmap => Sys2Proof.Machine.execDrawBitmap pvc x y w h bitmap s
  | .setBorder pvc => Sys2Proof.Machine.execSetBorder pvc s
  | .getWidth => Sys2Proof.Machine.execGetWidth s
  | .getHeight => Sys2Proof.Machine.execGetHeight s
  | .render => Sys2Proof.Machine.execRender s
  | .getStatus => Sys2Proof.Machine.execGetStatus s
  | .reserved0 low => Sys2Proof.Machine.execReserved0 low s
  | .reservedB low => Sys2Proof.Machine.execReservedB low s
  | .reservedC low => Sys2Proof.Machine.execReservedC low s
  | .reservedD low => Sys2Proof.Machine.execReservedD low s
  | .reservedE low => Sys2Proof.Machine.execReservedE low s
  | .reservedF low => Sys2Proof.Machine.execReservedF low s

end Sys2Proof.Machine
end

