-- ==== Sys2Proof/Machine/Port.lean ====
section
/-! DEFINITION. The command port and who moves at a step (spec/10_state.md R30, R31; spec/30_encoding.md R88, R89;
spec/70_reset_and_hazards.md R290). -/

namespace Sys2Proof.Machine

/-- What happens at a step. -/
inductive Move where
  /-- Nothing but this change of state. -/
  | done (s : State)
  /-- A whole command has arrived and decodes: it executes in this state. -/
  | command (i : Instr) (s : State)

/-- The command port is open (R30). -/
def State.portOpen (s : State) : Bool := s.seq == .idle && s.resp == none

/-- A whole command has arrived: its words leave PARSE (R30, R88), and the verdict of R89 decides. -/
def dispatchWords (ws : List Word) (s : State) : Move :=
  match decode ws with
  | .ok (i, _) => .command i s
  | .error (.reservedBits opc) => .done (s.rejectCommand opc)
  | .error .truncated => .done s
  | .error .noWord => .done s

/-- The open command port (R30): the next offered word, if there is one, is accepted. -/
def acceptWord (s : State) : Move :=
  match s.words with
  | [] => .done s
  | w :: rest =>
    if commandComplete (s.parse ++ [w]) then
      dispatchWords (s.parse ++ [w]) { s with words := rest, parse := [] }
    else .done { s with words := rest, parse := s.parse ++ [w] }

/-- A step with RESP full (R31): the host takes the word, or nothing happens. -/
def State.awaitHost (w : Word) (s : State) : State :=
  if s.drawTake.1 then s.drawTake.2.takeResponse w else s.drawTake.2

/-- The agent that moves, once power-on reset is known not to be asserted: the sequencer while SEQ = RUN, the host at
the RSP port while RESP is full, else the command port (log 10). -/
def State.agentMove (s : State) : Move :=
  match s.seq with
  | .run spc => .done (s.sequencerStep spc)
  | .idle =>
    match s.resp with
    | some w => .done (s.awaitHost w)
    | none => acceptWord s

/-- The move of a step. A power-on reset takes effect at once, whatever is going on (R290). -/
def State.move (s : State) : Move :=
  if s.resetAsserted then .done s.tickReset.powerOn else s.tickReset.agentMove

/-- A state in which the next word accepted completes the command `ws`, whose earlier words are in PARSE (log 14). -/
def State.offerCommand (ws : List Word) (s : State) : State :=
  { s with
    seq := .idle
    resp := none
    resetLine := []
    sent := 0
    parse := ws.dropLast
    words := ws.getLast?.toList ++ s.words }

end Sys2Proof.Machine
end

