-- ==== Sys2Proof/Machine/Step.lean ====
section
/-! DEFINITION. One step of the machine, and the placing of one command where the next step finds it. -/

namespace Sys2Proof.Machine

/-- One step: at most one agent moves, and a command that has arrived in full executes (R30, R63, R65). -/
def step (s : State) : Host.Outcome State Fault Refusal :=
  match s.move with
  | .done t => .next t
  | .command i t => exec i t

/-- `s` with the command of a row's bits offered so that the very next step accepts its last word and runs it
(log 14). -/
def State.withFetchWord (s : State) (nbits w : Nat) : State := s.offerCommand (tableWords nbits w)

end Sys2Proof.Machine
end

