-- ==== Sys2Proof/Safety.lean ====
section
/-! DEFINITION. What counts as a well-formed state and as rest, in the terms that statements use. -/

namespace Sys2Proof.Machine

/-- R276: a run is at rest. -/
def State.atRest (s : State) : Bool :=
  s.seq == .idle && s.parse.isEmpty && s.resp == none && !s.dly

/-- Both planes are canonical and, while a Display exists, list only indices from 1 to L - 1 (R50, R51, R53, R124). -/
def State.planesWf (s : State) : Bool :=
  s.p.wf && s.a.wf
    && (!s.cfg || (s.p.within 1 (planeLength s.geometry) && s.a.within 1 (planeLength s.geometry)))

/-- The action that holds the sequencer while a delay is pending: a Delay, or a Sync between two polls (R171, R180). -/
def delayable : Option Action → Bool
  | some (.delay _) => true
  | some .sync => true
  | some (.pin _ _) => false
  | some (.tx _) => false
  | none => false

/-- How many events the action at `spc` can have behind it with another one still to come in it (log 23): all but the
last event of a transaction, and the asserted sample of a Sync before its delay. -/
def State.sentLimit (s : State) : Option Action → Nat
  | some (.tx n) => (s.transaction n).length - 1
  | some .sync => 1
  | some (.pin _ _) => 0
  | some (.delay _) => 0
  | none => 0

/-- The sequencer and the ports agree. While a render runs there is a Display, no command is being assembled, no
response waits, and `spc` is at most len(RENDER_SEQ) (R22, R30, R31, R170); a delay is pending only at an action that
waits for one, with nothing of it still to be sent (R32); an action has events behind it only where another one is to
come, and between renders none has (R96, R180); a waiting response means that no command is being assembled (R31). -/
def State.portsWf (s : State) : Bool :=
  match s.seq with
  | .idle => !s.dly && s.sent == 0 && !commandComplete s.parse && (s.resp == none || s.parse.isEmpty)
  | .run spc =>
    s.cfg && s.parse.isEmpty && s.resp == none && Nat.ble spc s.renderSeq.length
      && Nat.ble s.sent (s.sentLimit (s.renderSeq[spc]?))
      && (!s.dly || (delayable (s.renderSeq[spc]?) && s.sent == 0))

/-- No pixel has the pair (P, A) = (0, 1) while a Display exists (R125). -/
def State.pairsLegal (s : State) : Prop :=
  s.cfg = true → ∀ i, s.a.read i &&& ~~~(s.p.read i) = 0#8

/-- The invariant of the machine: it holds after reset, and every step keeps it. -/
structure State.Inv (s : State) : Prop where
  params : s.params.valid = true
  planes : s.planesWf = true
  ports : s.portsWf = true
  pairs : s.pairsLegal

/-- Several events emitted, in order. -/
def State.emitAll : List Event → State → State
  | [], s => s
  | e :: rest, s => State.emitAll rest (s.emit e)

/-- The events of one Sync (R180) that finds the busy level asserted `polls` times and then cleared. -/
def syncEvents (asserted cleared : Level) (polls : Nat) : List Event :=
  (List.replicate polls [Event.busySample asserted, Event.delayReq 10]).flatten ++ [.busySample cleared]

/-- The events of a list of actions as R170 performs them one after the other, where each delay ends and each Sync in
turn finds the busy level asserted as often as `polls` says (0 where the list has run out). -/
def State.actionEvents (s : State) (cleared : Level) : List Action → List Nat → List Event
  | [], _ => []
  | .pin l v :: acts, polls => .pin l v :: s.actionEvents cleared acts polls
  | .delay ms :: acts, polls => .delayReq ms :: s.actionEvents cleared acts polls
  | .tx n :: acts, polls => s.transaction n ++ s.actionEvents cleared acts polls
  | .sync :: acts, [] => syncEvents s.params.busyActive cleared 0 ++ s.actionEvents cleared acts []
  | .sync :: acts, n :: polls => syncEvents s.params.busyActive cleared n ++ s.actionEvents cleared acts polls

/-- The strobes of a timer that answers each delay in turn, after as many steps without an answer as `waits` says. -/
def answerStrobes (waits : List Nat) : List Bool :=
  waits.flatMap fun n => List.replicate n false ++ [true]

/-- The busy levels that Syncs finding the line asserted `polls` times each will sample. -/
def pollLevels (asserted cleared : Level) (polls : List Nat) : List Level :=
  polls.flatMap fun n => List.replicate n asserted ++ [cleared]

/-- What a render reads (R187), and the inputs of the timer, the panel and the reset line, are the same in two
states. -/
structure State.RenderAgrees (s t : State) : Prop where
  var : s.var = t.var
  mode : s.mode = t.mode
  border : s.border = t.border
  p : s.p = t.p
  a : s.a = t.a
  params : s.params = t.params
  seq : s.seq = t.seq
  dly : s.dly = t.dly
  sent : s.sent = t.sent
  strobes : s.strobes = t.strobes
  levels : s.levels = t.levels
  resetLine : s.resetLine = t.resetLine
  draws : s.draws = t.draws

/-- The state right after power-on reset with any valid parameters, any words offered and any inputs of the
other agents. -/
def State.powerUp (params : Params) (words : List Word) (takes strobes : List Bool) (levels : List Level)
    (resetLine : List Bool) : State :=
  { State.reset with
    params := params
    words := words
    takes := takes
    strobes := strobes
    levels := levels
    resetLine := resetLine }

end Sys2Proof.Machine
end

