-- ==== Sys2Proof/Certificates/Slice0/Obligations.lean ====
section
/-! DEFINITION. The statements about FBSEQ, from the numbered rules of spec/. A statement about what a command does to
the planes has the canonical form of the planes as a premise; `StepKeepsInvariant` and `PowerUpMeetsInvariant` say
that no run leaves it. -/

open Sys2Proof Sys2Proof.Machine

/-! ### Encoding -/

/-- R80 to R90, R99: decoding the words of a well-formed command gives the command back, and leaves what follows. -/
def Obligations.DecodeEncodeRoundTrip : Prop :=
  ∀ (i : Instr) (rest : List Word), i.wellFormed = true → decode (encode i ++ rest) = .ok (i, rest)

/-- R82 to R90: what the decoder accepts is what the encoder writes, but for the unused high bytes of the last bitmap
word. -/
def Obligations.DecodedWordsAreTheEncoding : Prop :=
  ∀ (ws rest : List Word) (i : Instr), decode ws = .ok (i, rest) →
    i.wellFormed = true ∧ ∃ used, ws = used ++ rest ∧ used.length = (encode i).length ∧
      used.take 3 = (encode i).take 3 ∧
      ∀ pvc x y w h bitmap, i = .drawBitmap pvc x y w h bitmap →
        ∀ j, j < w.toNat → bitmapByte (used.drop 3) j = bitmapByte ((encode i).drop 3) j

/-- R86, opcode_table.json: a word matches at most one row, and it matches a row exactly where the decoder finds that
row's opcode and no reserved bit set. -/
def Obligations.OpcodeRowsDoNotOverlap : Prop :=
  ∀ (w0 : Word) (opc : Opcode),
    w0 &&& opc.maskBits = opc.matchBits ↔ Opcode.ofWord w0 = opc ∧ headerMatches w0 = true

/-- R99, spec/95_test_vectors.md: words written out from the encoding decode to the commands they stand for. -/
def Obligations.SampleWordsDecode : Prop :=
  decode [0x11800000] = .ok (.configure 1 2, []) ∧
  decode [0x20000000] = .ok (.destroy, []) ∧
  decode [0x30000000, 0x0000000F] = .ok (.setPixel 0 15 0, []) ∧
  decode [0x48000000, 0x00010002, 0x00010004] = .ok (.setPixels 2 2 1 4 1, []) ∧
  decode [0x58000000, 0x00000001, 0x00030002, 0x0000060D] = .ok (.drawBitmap 2 1 0 2 3 [0x0D, 0x06], []) ∧
  decode [0x68000000] = .ok (.setBorder 2, []) ∧
  decode [0xA0000000] = .ok (.getStatus, []) ∧
  decode [0x30400000, 0x00000000] = .error (.reservedBits .setPixel) ∧
  decode [0xF0000000] = .ok (.reservedF 0, [])

/-- R87: the number of words of a command, from OPC and, for DRAW_BITMAP, from the low half of word 2, which must have
arrived; it lies between 1 and 3 + 16384. -/
def Obligations.CommandLengthRule : Prop :=
  (∀ (w0 w1 w2 : Word) (rest : List Word),
    commandLength (w0 :: w1 :: w2 :: rest) = some
      (if (w0 >>> 28).toNat = 0x3 then 2
       else if (w0 >>> 28).toNat = 0x4 then 3
       else if (w0 >>> 28).toNat = 0x5 then 3 + (w2.toNat % 65536 + 3) / 4
       else 1)) ∧
  (∀ (w0 : Word) (tail : List Word), tail.length ≤ 1 →
    commandLength (w0 :: tail) =
      if (w0 >>> 28).toNat = 0x3 then some 2
      else if (w0 >>> 28).toNat = 0x4 then some 3
      else if (w0 >>> 28).toNat = 0x5 then none
      else some 1) ∧
  (∀ (ws : List Word) (n : Nat), commandLength ws = some n → 1 ≤ n ∧ n ≤ 3 + 16384)

/-- R90: a whole DRAW_BITMAP decodes to W bitmap bytes, bit k of byte j being bit 8*(j mod 4)+k of payload word
j div 4; payload words that agree on those bytes decode alike, whatever the unused high bytes hold. -/
def Obligations.BitmapPayloadPacking : Prop :=
  ∀ (w0 w1 w2 : Word) (payload : List Word),
    w0 &&& 0xF3FFFFFF#32 = 0x50000000#32 → payload.length = (w2.toNat % 65536 + 3) / 4 →
    ∃ pvc x y w h bitmap, decode (w0 :: w1 :: w2 :: payload) = .ok (.drawBitmap pvc x y w h bitmap, []) ∧
      w.toNat = w2.toNat % 65536 ∧ bitmap.length = w.toNat ∧
      (∀ j k, j < w.toNat → k < 8 →
        (bitmap[j]?).map (fun b => b.getLsbD k) = (payload[j / 4]?).map (fun p => p.getLsbD (8 * (j % 4) + k))) ∧
      (∀ payload' : List Word, payload'.length = payload.length →
        (∀ j k, j < w.toNat → k < 8 →
          (payload'[j / 4]?).map (fun p => p.getLsbD (8 * (j % 4) + k)) =
            (payload[j / 4]?).map (fun p => p.getLsbD (8 * (j % 4) + k))) →
        decode (w0 :: w1 :: w2 :: payload') = .ok (.drawBitmap pvc x y w h bitmap, []))

/-! ### The translator and WritePixel -/

/-- R123 with R124's index check, in plain arithmetic for both variants; BPR is C / 8 (R7). -/
def Obligations.TranslatorFormula : Prop :=
  ∀ (g : Geometry) (x y : Nat), g.valid = true →
    translator .matching g x y =
      (if x / 8 + 1 + y * (g.cols / 8) < g.cols / 8 * g.rows then
        some (x / 8 + 1 + y * (g.cols / 8), 7 - x % 8) else none) ∧
    translator .rotated g x y =
      (if y < g.width ∧ (g.width - 1 - y) / 8 + 1 + x * (g.cols / 8) < g.cols / 8 * g.rows then
        some ((g.width - 1 - y) / 8 + 1 + x * (g.cols / 8), 7 - (g.width - 1 - y) % 8) else none)

/-- R53, R71, R124: every index the translator produces lies in [1, L), whatever the parameters. -/
def Obligations.TranslatorStaysInside : Prop :=
  ∀ (v : Variant) (g : Geometry) (x y idx bit : Nat), translator v g x y = some (idx, bit) →
    1 ≤ idx ∧ idx < g.cols / 8 * g.rows ∧ bit ≤ 7

/-- R128: in the matching variant with W = C, the pixel (W, y) is accepted where y is, lies at index
C/8 + 1 + y * BPR, bit 7, and is the same bit as the pixel (0, y + 1). -/
def Obligations.RowEndAliasesNextRow : Prop :=
  ∀ (g : Geometry) (y : Nat), g.valid = true → g.width = g.cols → y ≤ g.height →
    inBounds g g.width y = true ∧
    (g.cols / 8 + 1 + y * (g.cols / 8) < g.cols / 8 * g.rows →
      translator .matching g g.width y = some (g.cols / 8 + 1 + y * (g.cols / 8), 7)) ∧
    translator .matching g g.width y = translator .matching g 0 (y + 1)

/-- R122: SET_PIXEL does nothing at all where x > W or y > H; x = W and y = H are accepted, and there it writes
both planes or flags F_ADDR. -/
def Obligations.BoundsCheckIsGreaterThan : Prop :=
  ∀ (s : State) (pvc : BitVec 2) (v : PixelValue) (x y : BitVec 16), s.cfg = true →
    (pvc = 0 ∧ v = .white ∨ pvc = 1 ∧ v = .black ∨ pvc = 2 ∧ v = .accent) →
    (¬(x.toNat ≤ s.geometry.width ∧ y.toNat ≤ s.geometry.height) → exec (.setPixel pvc x y) s = .next s) ∧
    (x.toNat ≤ s.geometry.width ∧ y.toNat ≤ s.geometry.height →
      (∀ i b, translator s.var s.geometry x.toNat y.toNat = some (i, b) →
        exec (.setPixel pvc x y) s = .next (s.writePlanes i b v)) ∧
      (translator s.var s.geometry x.toNat y.toNat = none →
        exec (.setPixel pvc x y) s = .next { s with fault := { s.fault with addr := true } }))

/-- R125, R126, R130: SET_PIXEL completes; it writes the pair of R125 at the one bit its pixel lands on, leaves every
other bit of both planes and every other field alone, and flags F_ADDR where the pixel lands outside the planes. -/
def Obligations.SetPixelWritesOnePair : Prop :=
  ∀ (s : State) (pvc : BitVec 2) (x y : BitVec 16), s.cfg = true → pvc ≠ 3 → s.p.wf = true → s.a.wf = true →
    ∃ t, exec (.setPixel pvc x y) s = .next t ∧
      t = { s with p := t.p, a := t.a, fault := t.fault } ∧
      (∀ i k, k < 8 → s.lands x.toNat y.toNat i k →
        (t.p.read i).getLsbD k = decide (pvc ≠ 1) ∧ (t.a.read i).getLsbD k = decide (pvc = 2)) ∧
      (∀ i k, k < 8 → ¬s.lands x.toNat y.toNat i k →
        (t.p.read i).getLsbD k = (s.p.read i).getLsbD k ∧ (t.a.read i).getLsbD k = (s.a.read i).getLsbD k) ∧
      (s.misses x.toNat y.toNat → t.fault = { s.fault with addr := true }) ∧
      (¬s.misses x.toNat y.toNat → t.fault = s.fault)

/-- R135: SET_PIXELS completes; it writes the pair at every bit that some pixel of [x, x+w) × [y, y+h) lands on and
changes nothing else, with no wrap of the sums, and flags F_ADDR where some pixel of the rectangle lands outside. -/
def Obligations.SetPixelsFillsRectangle : Prop :=
  ∀ (s : State) (pvc : BitVec 2) (x y w h : BitVec 16), s.cfg = true → pvc ≠ 3 → s.p.wf = true → s.a.wf = true →
    ∃ t, exec (.setPixels pvc x y w h) s = .next t ∧
      t = { s with p := t.p, a := t.a, fault := t.fault } ∧
      (∀ i k, k < 8 →
        (∃ m n, m < w.toNat ∧ n < h.toNat ∧ s.lands (x.toNat + m) (y.toNat + n) i k) →
        (t.p.read i).getLsbD k = decide (pvc ≠ 1) ∧ (t.a.read i).getLsbD k = decide (pvc = 2)) ∧
      (∀ i k, k < 8 →
        (¬∃ m n, m < w.toNat ∧ n < h.toNat ∧ s.lands (x.toNat + m) (y.toNat + n) i k) →
        (t.p.read i).getLsbD k = (s.p.read i).getLsbD k ∧ (t.a.read i).getLsbD k = (s.a.read i).getLsbD k) ∧
      ((∃ m n, m < w.toNat ∧ n < h.toNat ∧ s.misses (x.toNat + m) (y.toNat + n)) →
        t.fault = { s.fault with addr := true }) ∧
      ((¬∃ m n, m < w.toNat ∧ n < h.toNat ∧ s.misses (x.toNat + m) (y.toNat + n)) → t.fault = s.fault)

/-- R140: DRAW_BITMAP with H ≤ 8 completes; it writes the pair at every bit that the pixel of some set bitmap bit (row
k < h of column col < w) lands on, and changes nothing else: clear bits and rows k ≥ h draw nothing. -/
def Obligations.DrawBitmapDrawsSetBits : Prop :=
  ∀ (s : State) (pvc : BitVec 2) (x y w h : BitVec 16) (bitmap : List Byte),
    (Instr.drawBitmap pvc x y w h bitmap).wellFormed = true → s.cfg = true → pvc ≠ 3 → h.toNat ≤ 8 →
    s.p.wf = true → s.a.wf = true →
    ∃ t, exec (.drawBitmap pvc x y w h bitmap) s = .next t ∧
      t = { s with p := t.p, a := t.a, fault := t.fault } ∧
      (∀ i k, k < 8 →
        (∃ col b r, bitmap[col]? = some b ∧ r < h.toNat ∧ b.getLsbD r = true ∧
          s.lands (x.toNat + col) (y.toNat + r) i k) →
        (t.p.read i).getLsbD k = decide (pvc ≠ 1) ∧ (t.a.read i).getLsbD k = decide (pvc = 2)) ∧
      (∀ i k, k < 8 →
        (¬∃ col b r, bitmap[col]? = some b ∧ r < h.toNat ∧ b.getLsbD r = true ∧
          s.lands (x.toNat + col) (y.toNat + r) i k) →
        (t.p.read i).getLsbD k = (s.p.read i).getLsbD k ∧ (t.a.read i).getLsbD k = (s.a.read i).getLsbD k) ∧
      ((∃ col b r, bitmap[col]? = some b ∧ r < h.toNat ∧ b.getLsbD r = true ∧
          s.misses (x.toNat + col) (y.toNat + r)) → t.fault = { s.fault with addr := true }) ∧
      ((¬∃ col b r, bitmap[col]? = some b ∧ r < h.toNat ∧ b.getLsbD r = true ∧
          s.misses (x.toNat + col) (y.toNat + r)) → t.fault = s.fault)

/-- R127 (b), (c): after SET_PIXEL at a coordinate, a SET_PIXEL there with any value does what it would have done
alone; with the same value, the second one changes nothing. -/
def Obligations.LastPixelWriteWins : Prop :=
  ∀ (s t : State) (pvc pvc' : BitVec 2) (x y : BitVec 16), s.p.wf = true → s.a.wf = true → pvc ≠ 3 → pvc' ≠ 3 →
    exec (.setPixel pvc x y) s = .next t →
    exec (.setPixel pvc' x y) t = exec (.setPixel pvc' x y) s ∧ exec (.setPixel pvc x y) t = .next t

/-- R127 (d), R135, R140: the order in which a command writes its pixels cannot be seen. -/
def Obligations.WriteOrderIsInvisible : Prop :=
  ∀ (s : State) (v : PixelValue) (ps qs : List (Nat × Nat)), s.p.wf = true → s.a.wf = true → ps.Perm qs →
    s.paint v ps = s.paint v qs

/-- L1-5: a DRAW_BITMAP of one column with bit k alone set does what SET_PIXEL does at the offset. -/
def Obligations.OneBitBitmapIsSetPixel : Prop :=
  ∀ (s : State) (pvc : BitVec 2) (x y h : BitVec 16) (k : Nat), k < h.toNat → h.toNat ≤ 8 →
    y.toNat + k < 65536 →
    exec (.drawBitmap pvc x y 1#16 h [1#8 <<< k]) s = exec (.setPixel pvc x (y + BitVec.ofNat 16 k)) s

/-! ### The other commands -/

/-- R231: CONFIGURE with a known variant and mode completes: VAR and MODE latched, BORDER white, every byte of both
planes 0x00, CFG = 1; FAULT, the pins and every other field are unchanged (R292). -/
def Obligations.ConfigureCreatesDisplay : Prop :=
  ∀ (s : State) (varc modec : BitVec 2) (v : Variant) (m : ColorMode),
    (varc = 0 ∧ v = .matching ∨ varc = 1 ∧ v = .rotated) →
    (modec = 0 ∧ m = .bwr ∨ modec = 1 ∧ m = .bwy ∨ modec = 2 ∧ m = .bw) →
    ∃ t, exec (.configure varc modec) s = .next t ∧
      t = { s with cfg := true, var := v, mode := m, border := .white, p := t.p, a := t.a } ∧
      ∀ i, t.p.read i = 0x00#8 ∧ t.a.read i = 0x00#8

/-- R265: CONFIGURE with an unknown variant code or the reserved mode code sets F_CONFIG and changes nothing else. -/
def Obligations.ConfigureRejectsUnknownCodes : Prop :=
  ∀ (s : State) (varc modec : BitVec 2), (varc = 2 ∨ varc = 3 ∨ modec = 3) →
    exec (.configure varc modec) s = .next { s with fault := { s.fault with config := true } }

/-- R233: DESTROY completes with CFG = 0, so that the low seven status bits read 0. VAR, MODE, BORDER, P and A are
unspecified after it (the model's free values, log 4); everything else is unchanged. -/
def Obligations.DestroyReleasesDisplay : Prop :=
  ∀ s : State, s.cfg = true →
    ∃ t, exec .destroy s = .next t ∧
      t = { s with
        cfg := false, var := t.var, mode := t.mode, border := t.border, p := t.p, a := t.a, draws := t.draws } ∧
      t.statusWord.extractLsb' 0 7 = 0 ∧ t.p.wf = true ∧ t.a.wf = true

/-- R235: SET_BORDER completes in every mode and writes BORDER alone. -/
def Obligations.SetBorderWritesBorder : Prop :=
  ∀ (s : State) (pvc : BitVec 2) (v : PixelValue), s.cfg = true →
    (pvc = 0 ∧ v = .white ∨ pvc = 1 ∧ v = .black ∨ pvc = 2 ∧ v = .accent) →
    exec (.setBorder pvc) s = .next { s with border := v }

/-- R145: GET_WIDTH completes and responds with the visible width of the latched variant. -/
def Obligations.GetWidthResponds : Prop :=
  ∀ s : State, s.cfg = true →
    exec .getWidth s = .next { s with
      resp := some (BitVec.ofNat 32
        (match s.var with
          | .matching => s.params.matchingGeometry.width
          | .rotated => s.params.rotatedGeometry.width)) }

/-- R147: GET_HEIGHT completes and responds with the visible height, or with the width under HEIGHT_PARITY. -/
def Obligations.GetHeightResponds : Prop :=
  ∀ s : State, s.cfg = true →
    exec .getHeight s = .next { s with
      resp := some (BitVec.ofNat 32
        (match s.params.heightParity, s.var with
          | false, .matching => s.params.matchingGeometry.height
          | false, .rotated => s.params.rotatedGeometry.height
          | true, .matching => s.params.matchingGeometry.width
          | true, .rotated => s.params.rotatedGeometry.width)) }

/-- R41, R237: GET_STATUS completes, with or without a Display, writes RESP alone, and responds with the word of R41,
field by field. -/
def Obligations.GetStatusWord : Prop :=
  ∀ s : State, ∃ w : Word, exec .getStatus s = .next { s with resp := some w } ∧
    w.getLsbD 0 = s.cfg ∧
    w.extractLsb' 1 2 = (match s.cfg, s.var with
      | true, .rotated => 1
      | true, .matching => 0
      | false, _ => 0) ∧
    w.extractLsb' 3 2 = (match s.cfg, s.mode with
      | true, .bwr => 0
      | true, .bwy => 1
      | true, .bw => 2
      | false, _ => 0) ∧
    w.extractLsb' 5 2 = (match s.cfg, s.border with
      | true, .white => 0
      | true, .black => 1
      | true, .accent => 2
      | false, _ => 0) ∧
    w.getLsbD 7 = false ∧ w.getLsbD 8 = s.fault.illegalCmd ∧ w.getLsbD 9 = s.fault.badOperand ∧
    w.getLsbD 10 = s.fault.addr ∧ w.getLsbD 11 = s.fault.config ∧ w.getLsbD 12 = s.fault.notConfigured ∧
    w.extractLsb' 13 19 = 0

/-- R170: RENDER with a Display completes its own command step by moving SEQ to RUN(0), and writes nothing else. -/
def Obligations.RenderStartsSequencer : Prop :=
  ∀ s : State, s.cfg = true → exec .render s = .next { s with seq := .run 0 }

/-- R262: each of the six reserved opcodes, with any low bits, sets F_ILLEGAL_CMD and changes nothing else. -/
def Obligations.ReservedOpcodesAreIllegal : Prop :=
  ∀ (s : State) (low : BitVec 28) (i : Instr),
    (i = .reserved0 low ∨ i = .reservedB low ∨ i = .reservedC low ∨ i = .reservedD low ∨ i = .reservedE low ∨
      i = .reservedF low) →
    exec i s = .next { s with fault := { s.fault with illegalCmd := true } }

/-! ### Faults -/

/-- R263: with CFG = 0 every command but CONFIGURE and GET_STATUS sets F_NOT_CONFIGURED and does nothing else, but
for the zero response of GET_WIDTH and GET_HEIGHT. -/
def Obligations.NoDisplayMeansNotConfigured : Prop :=
  ∀ (s : State) (i : Instr), s.cfg = false →
    ((i = .destroy ∨ i = .render ∨ (∃ pvc, i = .setBorder pvc) ∨ (∃ pvc x y, i = .setPixel pvc x y) ∨
        (∃ pvc x y w h, i = .setPixels pvc x y w h) ∨ (∃ pvc x y w h b, i = .drawBitmap pvc x y w h b)) →
      exec i s = .next { s with fault := { s.fault with notConfigured := true } }) ∧
    ((i = .getWidth ∨ i = .getHeight) →
      exec i s = .next { s with fault := { s.fault with notConfigured := true }, resp := some 0x00000000#32 })

/-- R264: with a Display, the code 0b11 in each of the four commands with a PixelValue, and H > 8 in DRAW_BITMAP, set
F_BAD_OPERAND and change no plane byte and no register but FAULT. -/
def Obligations.BadOperandsAreRefused : Prop :=
  ∀ (s : State) (i : Instr), s.cfg = true →
    (i = .setBorder 3 ∨ (∃ x y, i = .setPixel 3 x y) ∨ (∃ x y w h, i = .setPixels 3 x y w h) ∨
      (∃ x y w h b, i = .drawBitmap 3 x y w h b) ∨
      (∃ pvc x y w h b, 8 < BitVec.toNat h ∧ i = .drawBitmap pvc x y w h b)) →
    exec i s = .next { s with fault := { s.fault with badOperand := true } }

/-- R262, R89, R238: a whole command whose word 0 has a reserved opcode or does not match its opcode's row is consumed
at its last word, sets F_ILLEGAL_CMD, and does nothing else but respond with zero for OPC 0x7, 0x8 and 0xA. -/
def Obligations.IllegalCommandsAreConsumed : Prop :=
  ∀ (s : State) (w0 w : Word) (rest : List Word),
    s.resetAsserted = false → s.seq = .idle → s.resp = none → s.words = w :: rest →
    (s.parse ++ [w]).head? = some w0 → commandComplete (s.parse ++ [w]) = true →
    ((w0 >>> 28).toNat ∈ [0x0, 0xB, 0xC, 0xD, 0xE, 0xF] ∨
      w0 &&& (Opcode.ofWord w0).maskBits ≠ (Opcode.ofWord w0).matchBits) →
    step s = .next { s with
      resetLine := s.resetLine.tail
      words := rest
      parse := []
      fault := { s.fault with illegalCmd := true }
      resp := if (w0 >>> 28).toNat ∈ [0x7, 0x8, 0xA] then some 0x00000000#32 else none }

/-- R238: GET_WIDTH, GET_HEIGHT and GET_STATUS respond each time they run; no other command responds. -/
def Obligations.OnlyGetCommandsRespond : Prop :=
  ∀ (s t : State) (i : Instr), exec i s = .next t →
    ((i = .getWidth ∨ i = .getHeight ∨ i = .getStatus) → ∃ w, t.resp = some w) ∧
    (¬(i = .getWidth ∨ i = .getHeight ∨ i = .getStatus) → t.resp = s.resp)

/-- R261, R290: a fault bit that is set stays set in every step but one in which power-on reset is asserted. -/
def Obligations.FaultBitsAreSticky : Prop :=
  ∀ (s t : State) (k : FaultKind), s.resetAsserted = false → step s = .next t → s.fault.has k = true →
    t.fault.has k = true

/-- R269: one command, run with FAULT clear, records at most one fault. -/
def Obligations.OneFaultPerCommand : Prop :=
  ∀ (s t : State) (i : Instr), s.fault = FaultBits.none → exec i s = .next t →
    t.fault = FaultBits.none ∨ ∃ k, t.fault = FaultBits.none.set k

/-- R239, R183: nothing stops the machine. Every step answers a next state. -/
def Obligations.EveryStepGoesOn : Prop := ∀ s : State, ∃ t, step s = .next t

/-- R37: what each command may write. Only CONFIGURE and DESTROY write CFG, VAR and MODE; only they and SET_BORDER
write BORDER; only they and the pixel commands write the planes (R56); only RENDER writes SEQ; no command writes
PARSE, DLY, the pins, the parameters, the output trace or any input of the other agents. R37's row of DESTROY names
no access to VAR, MODE, BORDER and the planes: that they are free values after it is R233 in the form of log 4. R37 lets
RENDER write the pins and DLY: it does so in the steps of the sequencer that follow its command (R28, R63, log 10). -/
def Obligations.CommandAccessTable : Prop :=
  ∀ (s t : State) (i : Instr), exec i s = .next t →
    (¬((∃ varc modec, i = .configure varc modec) ∨ i = .destroy) →
      t.cfg = s.cfg ∧ t.var = s.var ∧ t.mode = s.mode ∧ t.draws = s.draws) ∧
    (¬((∃ varc modec, i = .configure varc modec) ∨ i = .destroy ∨ ∃ pvc, i = .setBorder pvc) →
      t.border = s.border) ∧
    (¬((∃ varc modec, i = .configure varc modec) ∨ i = .destroy ∨ (∃ pvc x y, i = .setPixel pvc x y) ∨
        (∃ pvc x y w h, i = .setPixels pvc x y w h) ∨ (∃ pvc x y w h b, i = .drawBitmap pvc x y w h b)) →
      t.p = s.p ∧ t.a = s.a) ∧
    (i ≠ .render → t.seq = s.seq) ∧
    t.parse = s.parse ∧ t.dly = s.dly ∧ t.cs = s.cs ∧ t.dc = s.dc ∧ t.rst = s.rst ∧ t.params = s.params ∧
    t.trace = s.trace ∧ t.responses = s.responses ∧ t.sent = s.sent ∧ t.words = s.words ∧ t.takes = s.takes ∧
    t.strobes = s.strobes ∧ t.levels = s.levels ∧ t.resetLine = s.resetLine

/-! ### The command port -/

/-- R30, R88: when the last word of a command is accepted and decodes, the step runs the command, with PARSE empty
and the word gone from the offered words. -/
def Obligations.StepRunsTheDecodedCommand : Prop :=
  ∀ (s : State) (i : Instr) (w : Word) (rest tail : List Word),
    s.resetAsserted = false → s.seq = .idle → s.resp = none → s.words = w :: rest →
    decode (s.parse ++ [w]) = .ok (i, tail) →
    step s = exec i { s with resetLine := s.resetLine.tail, words := rest, parse := [] }

/-- R30, R63, R65, R88: a whole well-formed command offered to an open port, one word a step (log 10), runs at its last
word: after every shorter number of steps the words so far stand in PARSE and nothing else has changed. -/
def Obligations.OfferedCommandRuns : Prop :=
  ∀ (s : State) (i : Instr) (rest : List Word),
    i.wellFormed = true → s.resetLine = [] → s.seq = .idle → s.resp = none → s.parse = [] →
    s.words = encode i ++ rest →
    (∀ j, j < (encode i).length →
      Sys2Proof.core.run j s = .next { s with words := (encode i).drop j ++ rest, parse := (encode i).take j }) ∧
    Sys2Proof.core.run (encode i).length s = exec i { s with words := rest }

/-- R30, R88, R291: an open port with no word waits; a word that does not complete a command goes to PARSE and nothing
else happens. -/
def Obligations.OpenPortWaitsOrParses : Prop :=
  ∀ s : State, s.resetAsserted = false → s.seq = .idle → s.resp = none →
    (s.words = [] → step s = .next { s with resetLine := s.resetLine.tail }) ∧
    (∀ w rest, s.words = w :: rest → commandComplete (s.parse ++ [w]) = false →
      step s = .next { s with resetLine := s.resetLine.tail, words := rest, parse := s.parse ++ [w] })

/-- R31, R296: while a response waits, no word is accepted: either the host takes it, which empties RESP, or nothing
happens. Whether it does is the next of its script, or a free value (log 7). -/
def Obligations.WaitingResponseClosesPort : Prop :=
  ∀ (s : State) (w : Word),
    s.resetAsserted = false → s.seq = .idle → s.resp = some w →
    (s.drawTake.1 = true → step s = .next { s with
      resetLine := s.resetLine.tail
      takes := s.drawTake.2.takes
      draws := s.drawTake.2.draws
      resp := none
      responses := s.responses ++ [w] }) ∧
    (s.drawTake.1 = false → step s = .next { s with
      resetLine := s.resetLine.tail
      takes := s.drawTake.2.takes
      draws := s.drawTake.2.draws })

/-- R291, R34, R239: while no render runs, no step emits an event or moves a pin, but for a power-on reset. -/
def Obligations.NoEventsOutsideRender : Prop :=
  ∀ s t : State, s.resetAsserted = false → s.seq = .idle → step s = .next t →
    t.trace = s.trace ∧ t.cs = s.cs ∧ t.dc = s.dc ∧ t.rst = s.rst ∧ t.dly = s.dly

/-! ### The sequencer -/

/-- R56, R173, R295: while a render runs, a step writes SEQ, DLY, the pins, the trace, its count of events sent (log
23) and the inputs it uses up, and nothing else: no command word is accepted, and what the render reads does not
change. The trace only grows. -/
def Obligations.RenderStepFrame : Prop :=
  ∀ (s : State) (spc : Nat), s.resetAsserted = false → s.seq = .run spc →
    ∃ t, step s = .next t ∧
      t = { s with
        resetLine := s.resetLine.tail, seq := t.seq, dly := t.dly, cs := t.cs, dc := t.dc, rst := t.rst
        trace := t.trace, sent := t.sent, strobes := t.strobes, levels := t.levels, draws := t.draws } ∧
      ∃ es, t.trace = s.trace ++ es

/-- R172: RENDER_SEQ, written out. -/
def Obligations.RenderSequenceOrder : Prop :=
  ∀ (m : ColorMode) (b : PixelValue), renderSeq m b = List.flatten (α := Action)
    [[.pin .rst .low, .delay 500, .pin .rst .high, .delay 500],
     [.tx .swReset, .delay 1000, .sync],
     [.tx .analogBlock, .tx .digitalBlock],
     [.tx .driverOutput],
     [.tx .dummyLine, .tx .gateLine],
     [.tx .dataEntry],
     [.tx .ramXWindow, .tx .ramYWindow],
     [.tx .vcom],
     if m = .bw then [] else [.tx .sourceVoltage],
     [.tx .writeLut],
     if b = .accent ∧ m = .bw then [] else [.tx .border],
     [.tx .ramXCounter, .tx .ramYCounter, .tx .writeRam, .sync],
     [.tx .ramXCounter, .tx .ramYCounter, .tx .writeRamAlt],
     [.sync],
     [.tx .activationCfg, .tx .masterActivate]]

/-- R186: the number of transactions, the nineteen fixed ones by name, the numbers of syncs, fixed delays and reset pin
events, and the first and last transactions with their bytes. -/
def Obligations.RenderCounts : Prop :=
  ∀ s : State,
    let txs := s.renderSeq.filterMap fun act => match act with
      | .tx n => some n
      | .pin _ _ => none
      | .delay _ => none
      | .sync => none
    txs.length = 19 + (if s.mode = .bw then 0 else 1) + (if s.border = .accent ∧ s.mode = .bw then 0 else 1) ∧
    (∀ n, txs.count n = match n with
      | .ramXCounter => 2
      | .ramYCounter => 2
      | .sourceVoltage => if s.mode = .bw then 0 else 1
      | .border => if s.border = .accent ∧ s.mode = .bw then 0 else 1
      | _ => 1) ∧
    s.renderSeq.count .sync = 3 ∧
    (s.renderSeq.filterMap fun act => match act with
      | .delay ms => some ms
      | .pin _ _ => none
      | .tx _ => none
      | .sync => none) = [500, 500, 1000] ∧
    (s.renderSeq.filterMap fun act => match act with
      | .pin l v => some (l, v)
      | .delay _ => none
      | .tx _ => none
      | .sync => none) = [(.rst, .low), (.rst, .high)] ∧
    txs.head? = some .swReset ∧ commandByte s.params.rom .swReset = 0x12#8 ∧
    txs.drop (txs.length - 2) = [.activationCfg, .masterActivate] ∧
    commandByte s.params.rom .activationCfg = 0x20#8 ∧ s.txPayload .activationCfg = [0xC7#8] ∧
    commandByte s.params.rom .masterActivate = 0x20#8 ∧ s.txPayload .masterActivate = []

/-- R8, R97: the configuration commands of one byte, and the commands whose code is a parameter. -/
def Obligations.CommandSetBytes : Prop :=
  ∀ s : State,
    (∀ n c d, (n, c, d) ∈
        [(.analogBlock, s.params.rom.cmdAnalogBlock, s.params.rom.analogVal),
         (.digitalBlock, s.params.rom.cmdDigitalBlock, s.params.rom.digitalVal),
         (.dummyLine, s.params.rom.cmdDummyLine, s.params.rom.dummyVal),
         (.gateLine, s.params.rom.cmdGateLine, s.params.rom.gateVal),
         (.dataEntry, s.params.rom.cmdDataEntry, s.params.rom.dataEntryVal),
         (.vcom, s.params.rom.cmdVcom, s.params.rom.vcomVal)] →
      commandByte s.params.rom n = c ∧ s.txPayload n = [d]) ∧
    (∀ n c, (n, c) ∈
        [(.driverOutput, s.params.rom.cmdDriverOutput), (.ramXWindow, s.params.rom.cmdRamXWindow),
         (.ramYWindow, s.params.rom.cmdRamYWindow), (.sourceVoltage, s.params.rom.cmdSourceVoltage),
         (.border, s.params.rom.cmdBorder), (.ramXCounter, s.params.rom.cmdRamXCounter),
         (.ramYCounter, s.params.rom.cmdRamYCounter), (.writeRam, s.params.rom.cmdWriteRam),
         (.writeRamAlt, s.params.rom.cmdWriteRamAlt)] →
      commandByte s.params.rom n = c)

/-- R8, R9, R176, R186, L1-7: with valid parameters a render holds exactly one transaction whose command byte is 0x32
and one whose byte is 0x12, the WRITE_LUT and SW_RESET transactions, and two whose byte is 0x20, ACTIVATION_CFG and
MASTER_ACTIVATE; the LUT has 70 bytes. -/
def Obligations.ExactlyOneLutTransaction : Prop :=
  ∀ (s : State) (act : Action), s.params.valid = true → act ∈ s.renderSeq →
    (∀ n, act = .tx n → (commandByte s.params.rom n = 0x32#8 ↔ n = .writeLut)) ∧
    (∀ n, act = .tx n → (commandByte s.params.rom n = 0x12#8 ↔ n = .swReset)) ∧
    (∀ n, act = .tx n → (commandByte s.params.rom n = 0x20#8 ↔ n = .activationCfg ∨ n = .masterActivate)) ∧
    s.renderSeq.count (.tx .writeLut) = 1 ∧ s.renderSeq.count (.tx .swReset) = 1 ∧
    s.renderSeq.count (.tx .activationCfg) = 1 ∧ s.renderSeq.count (.tx .masterActivate) = 1 ∧
    (s.txPayload .writeLut).length = 70

/-- R175, R176, R177: the source voltage, the LUT and the border byte of a mode and a border, and when the voltage and
border commands are left out. -/
def Obligations.ColorModeSelectors : Prop :=
  ∀ s : State,
    (s.mode = .bwr → s.txPayload .sourceVoltage = s.params.rom.svRed.toList ∧
      s.txPayload .writeLut = s.params.rom.lutRed.toList) ∧
    (s.mode = .bwy → s.txPayload .sourceVoltage = s.params.rom.svYellow.toList ∧
      s.txPayload .writeLut = s.params.rom.lutYellow.toList) ∧
    (s.mode = .bw → s.txPayload .writeLut = s.params.rom.lutBlack.toList) ∧
    s.renderSeq.count (.tx .sourceVoltage) = (if s.mode = .bw then 0 else 1) ∧
    s.renderSeq.count (.tx .writeLut) = 1 ∧
    (s.border = .white → s.txPayload .border = [s.params.rom.borderWhite]) ∧
    (s.border = .black → s.txPayload .border = [s.params.rom.borderBlack]) ∧
    (s.border = .accent → s.mode = .bwr → s.txPayload .border = [s.params.rom.borderAccentRed]) ∧
    (s.border = .accent → s.mode = .bwy → s.txPayload .border = [s.params.rom.borderAccentYellow]) ∧
    s.renderSeq.count (.tx .border) = (if s.border = .accent ∧ s.mode = .bw then 0 else 1) ∧
    (s.params.valid = true → s.params.rom.svRed ≠ s.params.rom.svYellow ∧
      s.params.rom.borderAccentRed ≠ s.params.rom.borderAccentYellow)

/-- R178, R54: the two plane transfers carry L - 1 bytes in ascending order, and byte L - 1 is never sent. With a
Display whose planes list only indices from 1, the first byte sent is 0x00 (R53). -/
def Obligations.PlaneTransferBytes : Prop :=
  ∀ s : State,
    (s.txPayload .writeRam).length = s.geometry.cols / 8 * s.geometry.rows - 1 ∧
    (s.txPayload .writeRamAlt).length = s.geometry.cols / 8 * s.geometry.rows - 1 ∧
    (∀ i, i < s.geometry.cols / 8 * s.geometry.rows - 1 →
      (s.txPayload .writeRam)[i]? = some (s.p.read i) ∧ (s.txPayload .writeRamAlt)[i]? = some (s.a.read i)) ∧
    (s.cfg = true → s.planesWf = true → 1 < s.geometry.cols / 8 * s.geometry.rows →
      (s.txPayload .writeRam).head? = some 0x00#8 ∧ (s.txPayload .writeRamAlt).head? = some 0x00#8)

/-- R58, R97: the rows and columns in the driver-output and window payloads, low byte first, with no loss for valid
parameters; both counters are reset to 0. -/
def Obligations.WindowPayloadsLittleEndian : Prop :=
  ∀ s : State, s.params.valid = true →
    (∃ lo hi : Byte, s.txPayload .driverOutput = [lo, hi, 0x00] ∧
      s.txPayload .ramYWindow = [0x00, 0x00, lo, hi] ∧ lo.toNat + 256 * hi.toNat = s.geometry.rows - 1) ∧
    (∃ last : Byte, s.txPayload .ramXWindow = [0x00, last] ∧ last.toNat = s.geometry.cols / 8 - 1) ∧
    s.txPayload .ramXCounter = [0x00] ∧ s.txPayload .ramYCounter = [0x00, 0x00]

/-- R22, R96, R171: a transaction action that has emitted nothing yet ends, after some steps, with its framed events in
the trace in order, CS left high, DC left as the phase it ended in, and the step pointer moved on. (That it takes one
step for each event is the model's: logs 10 and 23.) -/
def Obligations.TransactionFraming : Prop :=
  ∀ (s : State) (spc : Nat) (n : TxName),
    s.resetLine = [] → s.seq = .run spc → s.dly = false → s.sent = 0 → s.renderSeq[spc]? = some (.tx n) →
    (s.txPayload n = [] →
      ∃ k, Sys2Proof.core.run k s = .next { s with
        seq := .run (spc + 1)
        trace := s.trace ++
          [.pin .cs .low, .pin .dc .low, .bytes [commandByte s.params.rom n], .pin .cs .high]
        cs := .high
        dc := .low }) ∧
    (s.txPayload n ≠ [] →
      ∃ k, Sys2Proof.core.run k s = .next { s with
        seq := .run (spc + 1)
        trace := s.trace ++
          [.pin .cs .low, .pin .dc .low, .bytes [commandByte s.params.rom n], .pin .dc .high,
            .bytes (s.txPayload n), .pin .cs .high]
        cs := .high
        dc := .high })

/-- R171, R174: step 1 of a render, with a timer that answers its two delays at once or late: after some steps the trace
has grown by RST low, a request of 500 ms, RST high, a request of 500 ms, with CS and DC not driven. -/
def Obligations.HardwareResetPulse : Prop :=
  ∀ (s : State) (wait1 wait2 : Nat) (rest : List Bool),
    s.resetLine = [] → s.seq = .run 0 → s.dly = false → s.strobes = answerStrobes [wait1, wait2] ++ rest →
    s.sent = 0 →
    ∃ k, Sys2Proof.core.run k s = .next { s with
      seq := .run 4
      strobes := rest
      trace := s.trace ++ [.pin .rst .low, .delayReq 500, .pin .rst .high, .delayReq 500]
      rst := .high }

/-- R32, R171, R180, R271: while DLY = 1 a running sequencer takes no step; DLY_DONE clears DLY, completes a Delay
action, and sends a Sync back to its next sample. Whether it arrives is the next of the timer's script, or a free value
(log 6). -/
def Obligations.DelayHoldsSequencer : Prop :=
  ∀ (s : State) (spc : Nat),
    s.resetAsserted = false → s.seq = .run spc → s.dly = true →
    (s.drawStrobe.1 = false → step s = .next { s with
      resetLine := s.resetLine.tail, strobes := s.drawStrobe.2.strobes, draws := s.drawStrobe.2.draws }) ∧
    (s.drawStrobe.1 = true → ∀ ms, s.renderSeq[spc]? = some (.delay ms) →
      step s = .next { s with
        resetLine := s.resetLine.tail
        strobes := s.drawStrobe.2.strobes
        draws := s.drawStrobe.2.draws
        dly := false
        seq := .run (spc + 1) }) ∧
    (s.drawStrobe.1 = true → s.renderSeq[spc]? = some .sync →
      step s = .next { s with
        resetLine := s.resetLine.tail
        strobes := s.drawStrobe.2.strobes
        draws := s.drawStrobe.2.draws
        dly := false })

/-- R180: a Sync samples the busy line at once; a sample that is not asserted ends the Sync; after an asserted one, a
delay of 10 ms is requested and the Sync stays. The level is the next of the panel's script, or a free value (log 5).
(That the sample and the request are two steps is the model's: logs 10 and 23.) -/
def Obligations.SyncPollsBusy : Prop :=
  ∀ (s : State) (spc : Nat),
    s.resetAsserted = false → s.seq = .run spc → s.dly = false → s.renderSeq[spc]? = some .sync →
    (s.sent = 0 → s.drawLevel.1 = s.params.busyActive →
      step s = .next { s with
        resetLine := s.resetLine.tail
        levels := s.drawLevel.2.levels
        draws := s.drawLevel.2.draws
        trace := s.trace ++ [.busySample s.drawLevel.1]
        sent := 1 }) ∧
    (s.sent = 0 → s.drawLevel.1 ≠ s.params.busyActive →
      step s = .next { s with
        resetLine := s.resetLine.tail
        levels := s.drawLevel.2.levels
        draws := s.drawLevel.2.draws
        trace := s.trace ++ [.busySample s.drawLevel.1]
        seq := .run (spc + 1) }) ∧
    (s.sent = 1 →
      step s = .next { s with
        resetLine := s.resetLine.tail
        trace := s.trace ++ [.delayReq 10]
        dly := true
        sent := 0 })

/-- R183: as long as every sample is asserted, a render in a Sync stays there, whatever the timer does: after k steps
with k asserted levels still to come, it is at the same action and the port is closed. -/
def Obligations.StuckBusyHangsRender : Prop :=
  ∀ (s t : State) (spc k : Nat), s.resetLine = [] → s.seq = .run spc → s.renderSeq[spc]? = some .sync →
    s.levels = List.replicate k s.params.busyActive → Sys2Proof.core.run k s = .next t →
    t.seq = .run spc ∧ t.words = s.words ∧ t.parse = s.parse ∧ t.p = s.p ∧ t.a = s.a

/-- R170 to R184: a render that starts in RUN(0), with a timer that answers each delay, at once or as many steps late as
`waits` says, and a panel that clears the busy line after `n1`, `n2` and `n3` asserted samples in its three Syncs, ends:
after some steps SEQ is idle, the trace has grown by exactly the events of RENDER_SEQ in order, the inputs are used up,
CS and RST are high and DC low, and nothing else has changed. -/
def Obligations.RenderEmitsItsSequence : Prop :=
  ∀ (s : State) (cleared : Level) (n1 n2 n3 : Nat) (waits : List Nat),
    s.resetLine = [] → s.seq = .run 0 → s.dly = false → s.sent = 0 → cleared ≠ s.params.busyActive →
    s.levels = pollLevels s.params.busyActive cleared [n1, n2, n3] →
    waits.length = 3 + n1 + n2 + n3 → s.strobes = answerStrobes waits →
    ∃ k, Sys2Proof.core.run k s = .next { s with
      seq := .idle
      strobes := []
      levels := []
      trace := s.trace ++ s.actionEvents cleared s.renderSeq [n1, n2, n3]
      cs := .high
      dc := .low
      rst := .high }

/-- R187, R38: what a render does in one step depends on VAR, MODE, BORDER, P, A, the parameters and the inputs of the
timer and the panel alone: two states that agree on these agree after the step, and emit the same events, whatever
FAULT, the pins, the offered words and the past outputs hold. -/
def Obligations.RenderDependsOnItsInputsAlone : Prop :=
  ∀ (s s' t t' : State) (spc : Nat), s.RenderAgrees s' → s.seq = .run spc → s.resetAsserted = false →
    step s = .next t → step s' = .next t' →
    t.RenderAgrees t' ∧ ∃ es, t.trace = s.trace ++ es ∧ t'.trace = s'.trace ++ es

/-! ### Reset and invariants -/

/-- R290: power-on reset takes effect at once, whatever is going on, clears FAULT, abandons PARSE, RESP and a running
render, puts the lines at their reset levels without an event, and leaves the parameters as they are. -/
def Obligations.PowerOnResetTakesEffect : Prop :=
  ∀ s : State, s.resetAsserted = true →
    ∃ t, step s = .next t ∧ t.cfg = false ∧ t.fault = FaultBits.none ∧ t.seq = .idle ∧ t.parse = [] ∧
      t.resp = none ∧ t.dly = false ∧ t.sent = 0 ∧ t.cs = .high ∧ t.dc = .low ∧ t.rst = .high ∧ t.trace = s.trace ∧
      t.params = s.params ∧ t.atRest = true

/-- R290, R302: a power-on reset can cut a transaction after any number `j` of its events: the trace then holds those
events and no more, the lines go to their reset levels without an event, and the render is abandoned. Every RENDER_SEQ
begins with the reset pulse of step 1, so the next render starts there. (Resets land between events, one event a step:
logs 9, 10 and 23.) -/
def Obligations.ResetCutsTransaction : Prop :=
  ∀ (s : State) (spc j : Nat) (n : TxName),
    s.seq = .run spc → s.dly = false → s.sent = 0 → s.renderSeq[spc]? = some (.tx n) →
    j < (s.transaction n).length → s.resetLine = List.replicate j false ++ [true] →
    (∃ t, Sys2Proof.core.run (j + 1) s = .next t ∧ t.trace = s.trace ++ (s.transaction n).take j ∧
      t.cs = .high ∧ t.dc = .low ∧ t.rst = .high ∧ t.seq = .idle ∧ t.sent = 0 ∧ t.cfg = false ∧ t.words = s.words) ∧
    ∀ m b, (renderSeq m b).take 4 = [.pin .rst .low, .delay 500, .pin .rst .high, .delay 500]

/-- R40: the values after power-on reset that the spec gives. -/
def Obligations.ResetValues : Prop :=
  State.reset.cfg = false ∧ State.reset.fault = ⟨false, false, false, false, false⟩ ∧ State.reset.seq = .idle ∧
    State.reset.parse = [] ∧ State.reset.resp = none ∧ State.reset.dly = false ∧ State.reset.cs = .high ∧
    State.reset.dc = .low ∧ State.reset.rst = .high

/-- R20: the parameters are fixed for the block's lifetime: no step changes them. -/
def Obligations.ParametersAreFixed : Prop :=
  ∀ s t : State, step s = .next t → t.params = s.params

/-- R22, R30 to R32, R50 to R53, R125: the invariant of the machine is kept by every step from every state that has
it. -/
def Obligations.StepKeepsInvariant : Prop :=
  ∀ s t : State, s.Inv → step s = .next t → t.Inv

/-- R40: the invariant holds at power-up with any valid parameters and any inputs; the reset values of P and A that it
reads are the model's (log 3). -/
def Obligations.PowerUpMeetsInvariant : Prop :=
  State.reset.Inv ∧
  ∀ (params : Params) (words : List Word) (takes strobes : List Bool) (levels : List Level) (resetLine : List Bool),
    params.valid = true → (State.powerUp params words takes strobes levels resetLine).Inv

/-- R53, R50, R125: in every run from power-up, whatever the host offers, while a Display exists byte 0 of each plane is
0x00, no index from L on holds anything, and no pixel has the pair (0, 1). -/
def Obligations.PlanesOfEveryRun : Prop :=
  ∀ (params : Params) (words : List Word) (takes strobes : List Bool) (levels : List Level) (resetLine : List Bool)
    (n : Nat) (t : State), params.valid = true →
    Sys2Proof.core.run n (State.powerUp params words takes strobes levels resetLine) = .next t → t.cfg = true →
    t.p.read 0 = 0x00#8 ∧ t.a.read 0 = 0x00#8 ∧
      (∀ i, t.geometry.cols / 8 * t.geometry.rows ≤ i → t.p.read i = 0x00#8 ∧ t.a.read i = 0x00#8) ∧
      ∀ i k, (t.a.read i).getLsbD k = true → (t.p.read i).getLsbD k = true
end

