-- ==== Sys2Proof/Laws/Decode.lean ====
section
/-! SUPPORT. The fields of an encoded word, and the shape of the opcode map. -/

namespace Sys2Proof

/-! ### Fields of the encoder's words -/

theorem extract_opcode_encodeHeader (opc : Opcode) (pvc varc modec : BitVec 2) :
    (encodeHeader opc pvc varc modec).extractLsb' 28 4 = opc.code := by
  apply BitVec.eq_of_getLsbD_eq
  intro i hi
  simp only [encodeHeader, BitVec.getLsbD_extractLsb', BitVec.getLsbD_append, hi, decide_true, Bool.true_and]
  rw [if_neg (by omega), if_neg (by omega), if_neg (by omega), if_neg (by omega)]
  congr 1
  omega

theorem extract_opcode_encodeReserved (opc : Opcode) (low : BitVec 28) :
    (encodeReserved opc low).extractLsb' 28 4 = opc.code := by
  apply BitVec.eq_of_getLsbD_eq
  intro i hi
  simp only [encodeReserved, BitVec.getLsbD_extractLsb', BitVec.getLsbD_append, hi, decide_true, Bool.true_and]
  rw [if_neg (by omega)]
  congr 1
  omega

/-- R81: the opcode of a word is the one whose code stands in bits 31:28. -/
theorem Opcode.ofWord_eq {w0 : Word} {opc : Opcode} (h : w0.extractLsb' 28 4 = opc.code) :
    Opcode.ofWord w0 = opc := by
  unfold Opcode.ofWord
  rw [h]
  cases opc <;> rfl

@[simp] theorem Opcode.ofWord_encodeHeader (opc : Opcode) (pvc varc modec : BitVec 2) :
    Opcode.ofWord (encodeHeader opc pvc varc modec) = opc :=
  Opcode.ofWord_eq (extract_opcode_encodeHeader opc pvc varc modec)

@[simp] theorem Opcode.ofWord_encodeReserved (opc : Opcode) (low : BitVec 28) :
    Opcode.ofWord (encodeReserved opc low) = opc :=
  Opcode.ofWord_eq (extract_opcode_encodeReserved opc low)

@[simp] theorem pvField_encodeHeader (opc : Opcode) (pvc varc modec : BitVec 2) :
    pvField (encodeHeader opc pvc varc modec) = pvc := by
  apply BitVec.eq_of_getLsbD_eq
  intro i hi
  simp only [pvField, encodeHeader, BitVec.getLsbD_extractLsb', BitVec.getLsbD_append, hi, decide_true, Bool.true_and]
  rw [if_neg (by omega), if_neg (by omega), if_neg (by omega), if_pos (by omega)]
  congr 1
  omega

@[simp] theorem varField_encodeHeader (opc : Opcode) (pvc varc modec : BitVec 2) :
    varField (encodeHeader opc pvc varc modec) = varc := by
  apply BitVec.eq_of_getLsbD_eq
  intro i hi
  simp only [varField, encodeHeader, BitVec.getLsbD_extractLsb', BitVec.getLsbD_append, hi, decide_true, Bool.true_and]
  rw [if_neg (by omega), if_neg (by omega), if_pos (by omega)]
  congr 1
  omega

@[simp] theorem modeField_encodeHeader (opc : Opcode) (pvc varc modec : BitVec 2) :
    modeField (encodeHeader opc pvc varc modec) = modec := by
  apply BitVec.eq_of_getLsbD_eq
  intro i hi
  simp only [modeField, encodeHeader, BitVec.getLsbD_extractLsb', BitVec.getLsbD_append, hi, decide_true, Bool.true_and]
  rw [if_neg (by omega), if_pos (by omega)]
  congr 1
  omega

@[simp] theorem lowField_encodeReserved (opc : Opcode) (low : BitVec 28) :
    lowField (encodeReserved opc low) = low := by
  apply BitVec.eq_of_getLsbD_eq
  intro i hi
  simp only [lowField, encodeReserved, BitVec.getLsbD_extractLsb', BitVec.getLsbD_append, hi, decide_true, Bool.true_and]
  rw [if_pos (by omega)]
  congr 1
  omega

@[simp] theorem lowHalf_encodeHalves (hi lo : BitVec 16) : lowHalf (encodeHalves hi lo) = lo := by
  apply BitVec.eq_of_getLsbD_eq
  intro i h
  simp only [lowHalf, encodeHalves, BitVec.getLsbD_extractLsb', BitVec.getLsbD_append, h, decide_true, Bool.true_and]
  rw [if_pos (by omega)]
  congr 1
  omega

@[simp] theorem highHalf_encodeHalves (hi lo : BitVec 16) : highHalf (encodeHalves hi lo) = hi := by
  apply BitVec.eq_of_getLsbD_eq
  intro i h
  simp only [highHalf, encodeHalves, BitVec.getLsbD_extractLsb', BitVec.getLsbD_append, h, decide_true, Bool.true_and]
  rw [if_neg (by omega)]
  congr 1
  omega

/-! ### The payload -/

@[simp] theorem length_bitmapBytes (payload : List Word) (w : Nat) : (bitmapBytes payload w).length = w := by
  simp [bitmapBytes]

@[simp] theorem length_encodePayload (bitmap : List Byte) (w : Nat) :
    (encodePayload bitmap w).length = payloadWords w := by
  simp [encodePayload]

theorem payloadWords_bound {w j : Nat} (h : j < w) : j / 4 < payloadWords w := by
  unfold payloadWords
  omega

/-- Byte `r` of payload word `k` is bitmap byte `4 k + r` (R90, R99). -/
theorem extract_encodePayloadWord (bitmap : List Byte) (k : Nat) {r : Nat} (hr : r < 4) :
    (encodePayloadWord bitmap k).extractLsb' (8 * r) 8 = bitmapAt bitmap (4 * k + r) := by
  apply BitVec.eq_of_getLsbD_eq
  intro i hi
  simp only [encodePayloadWord, BitVec.getLsbD_extractLsb', BitVec.getLsbD_append, hi, decide_true, Bool.true_and]
  have h4 : r = 0 ∨ r = 1 ∨ r = 2 ∨ r = 3 := by omega
  rcases h4 with rfl | rfl | rfl | rfl
  · rw [if_pos (by omega)]
    congr 1
    omega
  · rw [if_neg (by omega), if_pos (by omega)]
    congr 1
    omega
  · rw [if_neg (by omega), if_neg (by omega), if_pos (by omega)]
    congr 1
    omega
  · rw [if_neg (by omega), if_neg (by omega), if_neg (by omega)]
    congr 1
    omega

/-! ### Command lengths -/

/-- A command has at least one word. -/
theorem commandLength_pos {ws : List Word} {n : Nat} (h : commandLength ws = some n) : 1 ≤ n := by
  cases ws with
  | nil => cases h
  | cons w0 rest =>
    simp only [commandLength] at h
    split at h <;> first | (cases h; omega) | skip
    split at h
    · cases h
      omega
    · cases h

/-- A complete command does not decode to "truncated" or "no word". -/
theorem decode_of_complete {ws : List Word} (h : commandComplete ws = true) :
    ∃ w0 rest n, ws = w0 :: rest ∧ commandLength ws = some n ∧ n ≤ ws.length ∧
      decode ws = if headerMatches w0 then .ok (decodeFields w0 rest, ws.drop n)
        else .error (.reservedBits (Opcode.ofWord w0)) := by
  cases ws with
  | nil => cases h
  | cons w0 rest =>
    unfold commandComplete at h
    split at h
    · rename_i n hn
      refine ⟨w0, rest, n, rfl, hn, Nat.le_of_ble_eq_true h, ?_⟩
      simp only [decode, hn, h, if_true]
    · cases h

end Sys2Proof
end

