-- ==== Sys2Proof/Laws/State.lean ====
section
/-! SUPPORT. What each named update leaves in each field of State: one lemma per field per update, each true by
unfolding the update. -/

namespace Sys2Proof.Machine

/-! ### `State.raise` -/

@[simp] theorem State.raise_cfg (k : FaultKind) (s : State) : (s.raise k).cfg = s.cfg := rfl
@[simp] theorem State.raise_var (k : FaultKind) (s : State) : (s.raise k).var = s.var := rfl
@[simp] theorem State.raise_mode (k : FaultKind) (s : State) : (s.raise k).mode = s.mode := rfl
@[simp] theorem State.raise_border (k : FaultKind) (s : State) : (s.raise k).border = s.border := rfl
@[simp] theorem State.raise_p (k : FaultKind) (s : State) : (s.raise k).p = s.p := rfl
@[simp] theorem State.raise_a (k : FaultKind) (s : State) : (s.raise k).a = s.a := rfl
@[simp] theorem State.raise_fault (k : FaultKind) (s : State) : (s.raise k).fault = s.fault.set k := rfl
@[simp] theorem State.raise_seq (k : FaultKind) (s : State) : (s.raise k).seq = s.seq := rfl
@[simp] theorem State.raise_parse (k : FaultKind) (s : State) : (s.raise k).parse = s.parse := rfl
@[simp] theorem State.raise_resp (k : FaultKind) (s : State) : (s.raise k).resp = s.resp := rfl
@[simp] theorem State.raise_dly (k : FaultKind) (s : State) : (s.raise k).dly = s.dly := rfl
@[simp] theorem State.raise_cs (k : FaultKind) (s : State) : (s.raise k).cs = s.cs := rfl
@[simp] theorem State.raise_dc (k : FaultKind) (s : State) : (s.raise k).dc = s.dc := rfl
@[simp] theorem State.raise_rst (k : FaultKind) (s : State) : (s.raise k).rst = s.rst := rfl
@[simp] theorem State.raise_params (k : FaultKind) (s : State) : (s.raise k).params = s.params := rfl
@[simp] theorem State.raise_trace (k : FaultKind) (s : State) : (s.raise k).trace = s.trace := rfl
@[simp] theorem State.raise_responses (k : FaultKind) (s : State) : (s.raise k).responses = s.responses := rfl
@[simp] theorem State.raise_sent (k : FaultKind) (s : State) : (s.raise k).sent = s.sent := rfl
@[simp] theorem State.raise_words (k : FaultKind) (s : State) : (s.raise k).words = s.words := rfl
@[simp] theorem State.raise_takes (k : FaultKind) (s : State) : (s.raise k).takes = s.takes := rfl
@[simp] theorem State.raise_strobes (k : FaultKind) (s : State) : (s.raise k).strobes = s.strobes := rfl
@[simp] theorem State.raise_levels (k : FaultKind) (s : State) : (s.raise k).levels = s.levels := rfl
@[simp] theorem State.raise_resetLine (k : FaultKind) (s : State) : (s.raise k).resetLine = s.resetLine := rfl
@[simp] theorem State.raise_draws (k : FaultKind) (s : State) : (s.raise k).draws = s.draws := rfl

/-! ### `State.flag` -/

@[simp] theorem State.flag_cfg (s : State) : s.flag.cfg = s.cfg := rfl
@[simp] theorem State.flag_var (s : State) : s.flag.var = s.var := rfl
@[simp] theorem State.flag_mode (s : State) : s.flag.mode = s.mode := rfl
@[simp] theorem State.flag_border (s : State) : s.flag.border = s.border := rfl
@[simp] theorem State.flag_p (s : State) : s.flag.p = s.p := rfl
@[simp] theorem State.flag_a (s : State) : s.flag.a = s.a := rfl
@[simp] theorem State.flag_fault (s : State) : s.flag.fault = s.fault.set .addr := rfl
@[simp] theorem State.flag_seq (s : State) : s.flag.seq = s.seq := rfl
@[simp] theorem State.flag_parse (s : State) : s.flag.parse = s.parse := rfl
@[simp] theorem State.flag_resp (s : State) : s.flag.resp = s.resp := rfl
@[simp] theorem State.flag_dly (s : State) : s.flag.dly = s.dly := rfl
@[simp] theorem State.flag_cs (s : State) : s.flag.cs = s.cs := rfl
@[simp] theorem State.flag_dc (s : State) : s.flag.dc = s.dc := rfl
@[simp] theorem State.flag_rst (s : State) : s.flag.rst = s.rst := rfl
@[simp] theorem State.flag_params (s : State) : s.flag.params = s.params := rfl
@[simp] theorem State.flag_trace (s : State) : s.flag.trace = s.trace := rfl
@[simp] theorem State.flag_responses (s : State) : s.flag.responses = s.responses := rfl
@[simp] theorem State.flag_sent (s : State) : s.flag.sent = s.sent := rfl
@[simp] theorem State.flag_words (s : State) : s.flag.words = s.words := rfl
@[simp] theorem State.flag_takes (s : State) : s.flag.takes = s.takes := rfl
@[simp] theorem State.flag_strobes (s : State) : s.flag.strobes = s.strobes := rfl
@[simp] theorem State.flag_levels (s : State) : s.flag.levels = s.levels := rfl
@[simp] theorem State.flag_resetLine (s : State) : s.flag.resetLine = s.resetLine := rfl
@[simp] theorem State.flag_draws (s : State) : s.flag.draws = s.draws := rfl

/-! ### `State.respond` -/

@[simp] theorem State.respond_cfg (w : Word) (s : State) : (s.respond w).cfg = s.cfg := rfl
@[simp] theorem State.respond_var (w : Word) (s : State) : (s.respond w).var = s.var := rfl
@[simp] theorem State.respond_mode (w : Word) (s : State) : (s.respond w).mode = s.mode := rfl
@[simp] theorem State.respond_border (w : Word) (s : State) : (s.respond w).border = s.border := rfl
@[simp] theorem State.respond_p (w : Word) (s : State) : (s.respond w).p = s.p := rfl
@[simp] theorem State.respond_a (w : Word) (s : State) : (s.respond w).a = s.a := rfl
@[simp] theorem State.respond_fault (w : Word) (s : State) : (s.respond w).fault = s.fault := rfl
@[simp] theorem State.respond_seq (w : Word) (s : State) : (s.respond w).seq = s.seq := rfl
@[simp] theorem State.respond_parse (w : Word) (s : State) : (s.respond w).parse = s.parse := rfl
@[simp] theorem State.respond_resp (w : Word) (s : State) : (s.respond w).resp = some w := rfl
@[simp] theorem State.respond_dly (w : Word) (s : State) : (s.respond w).dly = s.dly := rfl
@[simp] theorem State.respond_cs (w : Word) (s : State) : (s.respond w).cs = s.cs := rfl
@[simp] theorem State.respond_dc (w : Word) (s : State) : (s.respond w).dc = s.dc := rfl
@[simp] theorem State.respond_rst (w : Word) (s : State) : (s.respond w).rst = s.rst := rfl
@[simp] theorem State.respond_params (w : Word) (s : State) : (s.respond w).params = s.params := rfl
@[simp] theorem State.respond_trace (w : Word) (s : State) : (s.respond w).trace = s.trace := rfl
@[simp] theorem State.respond_responses (w : Word) (s : State) : (s.respond w).responses = s.responses := rfl
@[simp] theorem State.respond_sent (w : Word) (s : State) : (s.respond w).sent = s.sent := rfl
@[simp] theorem State.respond_words (w : Word) (s : State) : (s.respond w).words = s.words := rfl
@[simp] theorem State.respond_takes (w : Word) (s : State) : (s.respond w).takes = s.takes := rfl
@[simp] theorem State.respond_strobes (w : Word) (s : State) : (s.respond w).strobes = s.strobes := rfl
@[simp] theorem State.respond_levels (w : Word) (s : State) : (s.respond w).levels = s.levels := rfl
@[simp] theorem State.respond_resetLine (w : Word) (s : State) : (s.respond w).resetLine = s.resetLine := rfl
@[simp] theorem State.respond_draws (w : Word) (s : State) : (s.respond w).draws = s.draws := rfl

/-! ### `State.createDisplay` -/

@[simp] theorem State.createDisplay_cfg (v : Variant) (m : ColorMode) (s : State) : (s.createDisplay v m).cfg = true := rfl
@[simp] theorem State.createDisplay_var (v : Variant) (m : ColorMode) (s : State) : (s.createDisplay v m).var = v := rfl
@[simp] theorem State.createDisplay_mode (v : Variant) (m : ColorMode) (s : State) : (s.createDisplay v m).mode = m := rfl
@[simp] theorem State.createDisplay_border (v : Variant) (m : ColorMode) (s : State) : (s.createDisplay v m).border = .white := rfl
@[simp] theorem State.createDisplay_p (v : Variant) (m : ColorMode) (s : State) : (s.createDisplay v m).p = [] := rfl
@[simp] theorem State.createDisplay_a (v : Variant) (m : ColorMode) (s : State) : (s.createDisplay v m).a = [] := rfl
@[simp] theorem State.createDisplay_fault (v : Variant) (m : ColorMode) (s : State) : (s.createDisplay v m).fault = s.fault := rfl
@[simp] theorem State.createDisplay_seq (v : Variant) (m : ColorMode) (s : State) : (s.createDisplay v m).seq = s.seq := rfl
@[simp] theorem State.createDisplay_parse (v : Variant) (m : ColorMode) (s : State) : (s.createDisplay v m).parse = s.parse := rfl
@[simp] theorem State.createDisplay_resp (v : Variant) (m : ColorMode) (s : State) : (s.createDisplay v m).resp = s.resp := rfl
@[simp] theorem State.createDisplay_dly (v : Variant) (m : ColorMode) (s : State) : (s.createDisplay v m).dly = s.dly := rfl
@[simp] theorem State.createDisplay_cs (v : Variant) (m : ColorMode) (s : State) : (s.createDisplay v m).cs = s.cs := rfl
@[simp] theorem State.createDisplay_dc (v : Variant) (m : ColorMode) (s : State) : (s.createDisplay v m).dc = s.dc := rfl
@[simp] theorem State.createDisplay_rst (v : Variant) (m : ColorMode) (s : State) : (s.createDisplay v m).rst = s.rst := rfl
@[simp] theorem State.createDisplay_params (v : Variant) (m : ColorMode) (s : State) : (s.createDisplay v m).params = s.params := rfl
@[simp] theorem State.createDisplay_trace (v : Variant) (m : ColorMode) (s : State) : (s.createDisplay v m).trace = s.trace := rfl
@[simp] theorem State.createDisplay_responses (v : Variant) (m : ColorMode) (s : State) : (s.createDisplay v m).responses = s.responses := rfl
@[simp] theorem State.createDisplay_sent (v : Variant) (m : ColorMode) (s : State) : (s.createDisplay v m).sent = s.sent := rfl
@[simp] theorem State.createDisplay_words (v : Variant) (m : ColorMode) (s : State) : (s.createDisplay v m).words = s.words := rfl
@[simp] theorem State.createDisplay_takes (v : Variant) (m : ColorMode) (s : State) : (s.createDisplay v m).takes = s.takes := rfl
@[simp] theorem State.createDisplay_strobes (v : Variant) (m : ColorMode) (s : State) : (s.createDisplay v m).strobes = s.strobes := rfl
@[simp] theorem State.createDisplay_levels (v : Variant) (m : ColorMode) (s : State) : (s.createDisplay v m).levels = s.levels := rfl
@[simp] theorem State.createDisplay_resetLine (v : Variant) (m : ColorMode) (s : State) : (s.createDisplay v m).resetLine = s.resetLine := rfl
@[simp] theorem State.createDisplay_draws (v : Variant) (m : ColorMode) (s : State) : (s.createDisplay v m).draws = s.draws := rfl

/-! ### `State.releaseDisplay` -/

@[simp] theorem State.releaseDisplay_cfg (s : State) : s.releaseDisplay.cfg = false := rfl
@[simp] theorem State.releaseDisplay_var (s : State) : s.releaseDisplay.var = Config.releasedVariant s.draws := rfl
@[simp] theorem State.releaseDisplay_mode (s : State) : s.releaseDisplay.mode = Config.releasedMode s.draws := rfl
@[simp] theorem State.releaseDisplay_border (s : State) : s.releaseDisplay.border = Config.releasedBorder s.draws := rfl
@[simp] theorem State.releaseDisplay_p (s : State) : s.releaseDisplay.p = Memory.ofBytes (Config.releasedPrimary s.draws) := rfl
@[simp] theorem State.releaseDisplay_a (s : State) : s.releaseDisplay.a = Memory.ofBytes (Config.releasedAccent s.draws) := rfl
@[simp] theorem State.releaseDisplay_fault (s : State) : s.releaseDisplay.fault = s.fault := rfl
@[simp] theorem State.releaseDisplay_seq (s : State) : s.releaseDisplay.seq = s.seq := rfl
@[simp] theorem State.releaseDisplay_parse (s : State) : s.releaseDisplay.parse = s.parse := rfl
@[simp] theorem State.releaseDisplay_resp (s : State) : s.releaseDisplay.resp = s.resp := rfl
@[simp] theorem State.releaseDisplay_dly (s : State) : s.releaseDisplay.dly = s.dly := rfl
@[simp] theorem State.releaseDisplay_cs (s : State) : s.releaseDisplay.cs = s.cs := rfl
@[simp] theorem State.releaseDisplay_dc (s : State) : s.releaseDisplay.dc = s.dc := rfl
@[simp] theorem State.releaseDisplay_rst (s : State) : s.releaseDisplay.rst = s.rst := rfl
@[simp] theorem State.releaseDisplay_params (s : State) : s.releaseDisplay.params = s.params := rfl
@[simp] theorem State.releaseDisplay_trace (s : State) : s.releaseDisplay.trace = s.trace := rfl
@[simp] theorem State.releaseDisplay_responses (s : State) : s.releaseDisplay.responses = s.responses := rfl
@[simp] theorem State.releaseDisplay_sent (s : State) : s.releaseDisplay.sent = s.sent := rfl
@[simp] theorem State.releaseDisplay_words (s : State) : s.releaseDisplay.words = s.words := rfl
@[simp] theorem State.releaseDisplay_takes (s : State) : s.releaseDisplay.takes = s.takes := rfl
@[simp] theorem State.releaseDisplay_strobes (s : State) : s.releaseDisplay.strobes = s.strobes := rfl
@[simp] theorem State.releaseDisplay_levels (s : State) : s.releaseDisplay.levels = s.levels := rfl
@[simp] theorem State.releaseDisplay_resetLine (s : State) : s.releaseDisplay.resetLine = s.resetLine := rfl
@[simp] theorem State.releaseDisplay_draws (s : State) : s.releaseDisplay.draws = s.draws + 1 := rfl

/-! ### `State.setBorder` -/

@[simp] theorem State.setBorder_cfg (v : PixelValue) (s : State) : (s.setBorder v).cfg = s.cfg := rfl
@[simp] theorem State.setBorder_var (v : PixelValue) (s : State) : (s.setBorder v).var = s.var := rfl
@[simp] theorem State.setBorder_mode (v : PixelValue) (s : State) : (s.setBorder v).mode = s.mode := rfl
@[simp] theorem State.setBorder_border (v : PixelValue) (s : State) : (s.setBorder v).border = v := rfl
@[simp] theorem State.setBorder_p (v : PixelValue) (s : State) : (s.setBorder v).p = s.p := rfl
@[simp] theorem State.setBorder_a (v : PixelValue) (s : State) : (s.setBorder v).a = s.a := rfl
@[simp] theorem State.setBorder_fault (v : PixelValue) (s : State) : (s.setBorder v).fault = s.fault := rfl
@[simp] theorem State.setBorder_seq (v : PixelValue) (s : State) : (s.setBorder v).seq = s.seq := rfl
@[simp] theorem State.setBorder_parse (v : PixelValue) (s : State) : (s.setBorder v).parse = s.parse := rfl
@[simp] theorem State.setBorder_resp (v : PixelValue) (s : State) : (s.setBorder v).resp = s.resp := rfl
@[simp] theorem State.setBorder_dly (v : PixelValue) (s : State) : (s.setBorder v).dly = s.dly := rfl
@[simp] theorem State.setBorder_cs (v : PixelValue) (s : State) : (s.setBorder v).cs = s.cs := rfl
@[simp] theorem State.setBorder_dc (v : PixelValue) (s : State) : (s.setBorder v).dc = s.dc := rfl
@[simp] theorem State.setBorder_rst (v : PixelValue) (s : State) : (s.setBorder v).rst = s.rst := rfl
@[simp] theorem State.setBorder_params (v : PixelValue) (s : State) : (s.setBorder v).params = s.params := rfl
@[simp] theorem State.setBorder_trace (v : PixelValue) (s : State) : (s.setBorder v).trace = s.trace := rfl
@[simp] theorem State.setBorder_responses (v : PixelValue) (s : State) : (s.setBorder v).responses = s.responses := rfl
@[simp] theorem State.setBorder_sent (v : PixelValue) (s : State) : (s.setBorder v).sent = s.sent := rfl
@[simp] theorem State.setBorder_words (v : PixelValue) (s : State) : (s.setBorder v).words = s.words := rfl
@[simp] theorem State.setBorder_takes (v : PixelValue) (s : State) : (s.setBorder v).takes = s.takes := rfl
@[simp] theorem State.setBorder_strobes (v : PixelValue) (s : State) : (s.setBorder v).strobes = s.strobes := rfl
@[simp] theorem State.setBorder_levels (v : PixelValue) (s : State) : (s.setBorder v).levels = s.levels := rfl
@[simp] theorem State.setBorder_resetLine (v : PixelValue) (s : State) : (s.setBorder v).resetLine = s.resetLine := rfl
@[simp] theorem State.setBorder_draws (v : PixelValue) (s : State) : (s.setBorder v).draws = s.draws := rfl

/-! ### `State.emit` -/

@[simp] theorem State.emit_cfg (e : Event) (s : State) : (s.emit e).cfg = s.cfg := rfl
@[simp] theorem State.emit_var (e : Event) (s : State) : (s.emit e).var = s.var := rfl
@[simp] theorem State.emit_mode (e : Event) (s : State) : (s.emit e).mode = s.mode := rfl
@[simp] theorem State.emit_border (e : Event) (s : State) : (s.emit e).border = s.border := rfl
@[simp] theorem State.emit_p (e : Event) (s : State) : (s.emit e).p = s.p := rfl
@[simp] theorem State.emit_a (e : Event) (s : State) : (s.emit e).a = s.a := rfl
@[simp] theorem State.emit_fault (e : Event) (s : State) : (s.emit e).fault = s.fault := rfl
@[simp] theorem State.emit_seq (e : Event) (s : State) : (s.emit e).seq = s.seq := rfl
@[simp] theorem State.emit_parse (e : Event) (s : State) : (s.emit e).parse = s.parse := rfl
@[simp] theorem State.emit_resp (e : Event) (s : State) : (s.emit e).resp = s.resp := rfl
@[simp] theorem State.emit_dly (e : Event) (s : State) : (s.emit e).dly = s.dly := rfl
@[simp] theorem State.emit_cs (e : Event) (s : State) : (s.emit e).cs = e.latch .cs s.cs := rfl
@[simp] theorem State.emit_dc (e : Event) (s : State) : (s.emit e).dc = e.latch .dc s.dc := rfl
@[simp] theorem State.emit_rst (e : Event) (s : State) : (s.emit e).rst = e.latch .rst s.rst := rfl
@[simp] theorem State.emit_params (e : Event) (s : State) : (s.emit e).params = s.params := rfl
@[simp] theorem State.emit_trace (e : Event) (s : State) : (s.emit e).trace = s.trace ++ [e] := rfl
@[simp] theorem State.emit_responses (e : Event) (s : State) : (s.emit e).responses = s.responses := rfl
@[simp] theorem State.emit_sent (e : Event) (s : State) : (s.emit e).sent = s.sent := rfl
@[simp] theorem State.emit_words (e : Event) (s : State) : (s.emit e).words = s.words := rfl
@[simp] theorem State.emit_takes (e : Event) (s : State) : (s.emit e).takes = s.takes := rfl
@[simp] theorem State.emit_strobes (e : Event) (s : State) : (s.emit e).strobes = s.strobes := rfl
@[simp] theorem State.emit_levels (e : Event) (s : State) : (s.emit e).levels = s.levels := rfl
@[simp] theorem State.emit_resetLine (e : Event) (s : State) : (s.emit e).resetLine = s.resetLine := rfl
@[simp] theorem State.emit_draws (e : Event) (s : State) : (s.emit e).draws = s.draws := rfl

/-! ### `State.setSeq` -/

@[simp] theorem State.setSeq_cfg (q : Seq) (s : State) : (s.setSeq q).cfg = s.cfg := rfl
@[simp] theorem State.setSeq_var (q : Seq) (s : State) : (s.setSeq q).var = s.var := rfl
@[simp] theorem State.setSeq_mode (q : Seq) (s : State) : (s.setSeq q).mode = s.mode := rfl
@[simp] theorem State.setSeq_border (q : Seq) (s : State) : (s.setSeq q).border = s.border := rfl
@[simp] theorem State.setSeq_p (q : Seq) (s : State) : (s.setSeq q).p = s.p := rfl
@[simp] theorem State.setSeq_a (q : Seq) (s : State) : (s.setSeq q).a = s.a := rfl
@[simp] theorem State.setSeq_fault (q : Seq) (s : State) : (s.setSeq q).fault = s.fault := rfl
@[simp] theorem State.setSeq_seq (q : Seq) (s : State) : (s.setSeq q).seq = q := rfl
@[simp] theorem State.setSeq_parse (q : Seq) (s : State) : (s.setSeq q).parse = s.parse := rfl
@[simp] theorem State.setSeq_resp (q : Seq) (s : State) : (s.setSeq q).resp = s.resp := rfl
@[simp] theorem State.setSeq_dly (q : Seq) (s : State) : (s.setSeq q).dly = s.dly := rfl
@[simp] theorem State.setSeq_cs (q : Seq) (s : State) : (s.setSeq q).cs = s.cs := rfl
@[simp] theorem State.setSeq_dc (q : Seq) (s : State) : (s.setSeq q).dc = s.dc := rfl
@[simp] theorem State.setSeq_rst (q : Seq) (s : State) : (s.setSeq q).rst = s.rst := rfl
@[simp] theorem State.setSeq_params (q : Seq) (s : State) : (s.setSeq q).params = s.params := rfl
@[simp] theorem State.setSeq_trace (q : Seq) (s : State) : (s.setSeq q).trace = s.trace := rfl
@[simp] theorem State.setSeq_responses (q : Seq) (s : State) : (s.setSeq q).responses = s.responses := rfl
@[simp] theorem State.setSeq_sent (q : Seq) (s : State) : (s.setSeq q).sent = s.sent := rfl
@[simp] theorem State.setSeq_words (q : Seq) (s : State) : (s.setSeq q).words = s.words := rfl
@[simp] theorem State.setSeq_takes (q : Seq) (s : State) : (s.setSeq q).takes = s.takes := rfl
@[simp] theorem State.setSeq_strobes (q : Seq) (s : State) : (s.setSeq q).strobes = s.strobes := rfl
@[simp] theorem State.setSeq_levels (q : Seq) (s : State) : (s.setSeq q).levels = s.levels := rfl
@[simp] theorem State.setSeq_resetLine (q : Seq) (s : State) : (s.setSeq q).resetLine = s.resetLine := rfl
@[simp] theorem State.setSeq_draws (q : Seq) (s : State) : (s.setSeq q).draws = s.draws := rfl

/-! ### `State.setSent` -/

@[simp] theorem State.setSent_cfg (n : Nat) (s : State) : (s.setSent n).cfg = s.cfg := rfl
@[simp] theorem State.setSent_var (n : Nat) (s : State) : (s.setSent n).var = s.var := rfl
@[simp] theorem State.setSent_mode (n : Nat) (s : State) : (s.setSent n).mode = s.mode := rfl
@[simp] theorem State.setSent_border (n : Nat) (s : State) : (s.setSent n).border = s.border := rfl
@[simp] theorem State.setSent_p (n : Nat) (s : State) : (s.setSent n).p = s.p := rfl
@[simp] theorem State.setSent_a (n : Nat) (s : State) : (s.setSent n).a = s.a := rfl
@[simp] theorem State.setSent_fault (n : Nat) (s : State) : (s.setSent n).fault = s.fault := rfl
@[simp] theorem State.setSent_seq (n : Nat) (s : State) : (s.setSent n).seq = s.seq := rfl
@[simp] theorem State.setSent_parse (n : Nat) (s : State) : (s.setSent n).parse = s.parse := rfl
@[simp] theorem State.setSent_resp (n : Nat) (s : State) : (s.setSent n).resp = s.resp := rfl
@[simp] theorem State.setSent_dly (n : Nat) (s : State) : (s.setSent n).dly = s.dly := rfl
@[simp] theorem State.setSent_cs (n : Nat) (s : State) : (s.setSent n).cs = s.cs := rfl
@[simp] theorem State.setSent_dc (n : Nat) (s : State) : (s.setSent n).dc = s.dc := rfl
@[simp] theorem State.setSent_rst (n : Nat) (s : State) : (s.setSent n).rst = s.rst := rfl
@[simp] theorem State.setSent_params (n : Nat) (s : State) : (s.setSent n).params = s.params := rfl
@[simp] theorem State.setSent_trace (n : Nat) (s : State) : (s.setSent n).trace = s.trace := rfl
@[simp] theorem State.setSent_responses (n : Nat) (s : State) : (s.setSent n).responses = s.responses := rfl
@[simp] theorem State.setSent_sent (n : Nat) (s : State) : (s.setSent n).sent = n := rfl
@[simp] theorem State.setSent_words (n : Nat) (s : State) : (s.setSent n).words = s.words := rfl
@[simp] theorem State.setSent_takes (n : Nat) (s : State) : (s.setSent n).takes = s.takes := rfl
@[simp] theorem State.setSent_strobes (n : Nat) (s : State) : (s.setSent n).strobes = s.strobes := rfl
@[simp] theorem State.setSent_levels (n : Nat) (s : State) : (s.setSent n).levels = s.levels := rfl
@[simp] theorem State.setSent_resetLine (n : Nat) (s : State) : (s.setSent n).resetLine = s.resetLine := rfl
@[simp] theorem State.setSent_draws (n : Nat) (s : State) : (s.setSent n).draws = s.draws := rfl

/-! ### `State.completeAction` -/

@[simp] theorem State.completeAction_cfg (spc : Nat) (s : State) : (s.completeAction spc).cfg = s.cfg := rfl
@[simp] theorem State.completeAction_var (spc : Nat) (s : State) : (s.completeAction spc).var = s.var := rfl
@[simp] theorem State.completeAction_mode (spc : Nat) (s : State) : (s.completeAction spc).mode = s.mode := rfl
@[simp] theorem State.completeAction_border (spc : Nat) (s : State) : (s.completeAction spc).border = s.border := rfl
@[simp] theorem State.completeAction_p (spc : Nat) (s : State) : (s.completeAction spc).p = s.p := rfl
@[simp] theorem State.completeAction_a (spc : Nat) (s : State) : (s.completeAction spc).a = s.a := rfl
@[simp] theorem State.completeAction_fault (spc : Nat) (s : State) : (s.completeAction spc).fault = s.fault := rfl
@[simp] theorem State.completeAction_seq (spc : Nat) (s : State) : (s.completeAction spc).seq = .run (spc + 1) := rfl
@[simp] theorem State.completeAction_parse (spc : Nat) (s : State) : (s.completeAction spc).parse = s.parse := rfl
@[simp] theorem State.completeAction_resp (spc : Nat) (s : State) : (s.completeAction spc).resp = s.resp := rfl
@[simp] theorem State.completeAction_dly (spc : Nat) (s : State) : (s.completeAction spc).dly = s.dly := rfl
@[simp] theorem State.completeAction_cs (spc : Nat) (s : State) : (s.completeAction spc).cs = s.cs := rfl
@[simp] theorem State.completeAction_dc (spc : Nat) (s : State) : (s.completeAction spc).dc = s.dc := rfl
@[simp] theorem State.completeAction_rst (spc : Nat) (s : State) : (s.completeAction spc).rst = s.rst := rfl
@[simp] theorem State.completeAction_params (spc : Nat) (s : State) : (s.completeAction spc).params = s.params := rfl
@[simp] theorem State.completeAction_trace (spc : Nat) (s : State) : (s.completeAction spc).trace = s.trace := rfl
@[simp] theorem State.completeAction_responses (spc : Nat) (s : State) : (s.completeAction spc).responses = s.responses := rfl
@[simp] theorem State.completeAction_sent (spc : Nat) (s : State) : (s.completeAction spc).sent = 0 := rfl
@[simp] theorem State.completeAction_words (spc : Nat) (s : State) : (s.completeAction spc).words = s.words := rfl
@[simp] theorem State.completeAction_takes (spc : Nat) (s : State) : (s.completeAction spc).takes = s.takes := rfl
@[simp] theorem State.completeAction_strobes (spc : Nat) (s : State) : (s.completeAction spc).strobes = s.strobes := rfl
@[simp] theorem State.completeAction_levels (spc : Nat) (s : State) : (s.completeAction spc).levels = s.levels := rfl
@[simp] theorem State.completeAction_resetLine (spc : Nat) (s : State) : (s.completeAction spc).resetLine = s.resetLine := rfl
@[simp] theorem State.completeAction_draws (spc : Nat) (s : State) : (s.completeAction spc).draws = s.draws := rfl

/-! ### `State.setDly` -/

@[simp] theorem State.setDly_cfg (b : Bool) (s : State) : (s.setDly b).cfg = s.cfg := rfl
@[simp] theorem State.setDly_var (b : Bool) (s : State) : (s.setDly b).var = s.var := rfl
@[simp] theorem State.setDly_mode (b : Bool) (s : State) : (s.setDly b).mode = s.mode := rfl
@[simp] theorem State.setDly_border (b : Bool) (s : State) : (s.setDly b).border = s.border := rfl
@[simp] theorem State.setDly_p (b : Bool) (s : State) : (s.setDly b).p = s.p := rfl
@[simp] theorem State.setDly_a (b : Bool) (s : State) : (s.setDly b).a = s.a := rfl
@[simp] theorem State.setDly_fault (b : Bool) (s : State) : (s.setDly b).fault = s.fault := rfl
@[simp] theorem State.setDly_seq (b : Bool) (s : State) : (s.setDly b).seq = s.seq := rfl
@[simp] theorem State.setDly_parse (b : Bool) (s : State) : (s.setDly b).parse = s.parse := rfl
@[simp] theorem State.setDly_resp (b : Bool) (s : State) : (s.setDly b).resp = s.resp := rfl
@[simp] theorem State.setDly_dly (b : Bool) (s : State) : (s.setDly b).dly = b := rfl
@[simp] theorem State.setDly_cs (b : Bool) (s : State) : (s.setDly b).cs = s.cs := rfl
@[simp] theorem State.setDly_dc (b : Bool) (s : State) : (s.setDly b).dc = s.dc := rfl
@[simp] theorem State.setDly_rst (b : Bool) (s : State) : (s.setDly b).rst = s.rst := rfl
@[simp] theorem State.setDly_params (b : Bool) (s : State) : (s.setDly b).params = s.params := rfl
@[simp] theorem State.setDly_trace (b : Bool) (s : State) : (s.setDly b).trace = s.trace := rfl
@[simp] theorem State.setDly_responses (b : Bool) (s : State) : (s.setDly b).responses = s.responses := rfl
@[simp] theorem State.setDly_sent (b : Bool) (s : State) : (s.setDly b).sent = s.sent := rfl
@[simp] theorem State.setDly_words (b : Bool) (s : State) : (s.setDly b).words = s.words := rfl
@[simp] theorem State.setDly_takes (b : Bool) (s : State) : (s.setDly b).takes = s.takes := rfl
@[simp] theorem State.setDly_strobes (b : Bool) (s : State) : (s.setDly b).strobes = s.strobes := rfl
@[simp] theorem State.setDly_levels (b : Bool) (s : State) : (s.setDly b).levels = s.levels := rfl
@[simp] theorem State.setDly_resetLine (b : Bool) (s : State) : (s.setDly b).resetLine = s.resetLine := rfl
@[simp] theorem State.setDly_draws (b : Bool) (s : State) : (s.setDly b).draws = s.draws := rfl

/-! ### `State.tickReset` -/

@[simp] theorem State.tickReset_cfg (s : State) : s.tickReset.cfg = s.cfg := rfl
@[simp] theorem State.tickReset_var (s : State) : s.tickReset.var = s.var := rfl
@[simp] theorem State.tickReset_mode (s : State) : s.tickReset.mode = s.mode := rfl
@[simp] theorem State.tickReset_border (s : State) : s.tickReset.border = s.border := rfl
@[simp] theorem State.tickReset_p (s : State) : s.tickReset.p = s.p := rfl
@[simp] theorem State.tickReset_a (s : State) : s.tickReset.a = s.a := rfl
@[simp] theorem State.tickReset_fault (s : State) : s.tickReset.fault = s.fault := rfl
@[simp] theorem State.tickReset_seq (s : State) : s.tickReset.seq = s.seq := rfl
@[simp] theorem State.tickReset_parse (s : State) : s.tickReset.parse = s.parse := rfl
@[simp] theorem State.tickReset_resp (s : State) : s.tickReset.resp = s.resp := rfl
@[simp] theorem State.tickReset_dly (s : State) : s.tickReset.dly = s.dly := rfl
@[simp] theorem State.tickReset_cs (s : State) : s.tickReset.cs = s.cs := rfl
@[simp] theorem State.tickReset_dc (s : State) : s.tickReset.dc = s.dc := rfl
@[simp] theorem State.tickReset_rst (s : State) : s.tickReset.rst = s.rst := rfl
@[simp] theorem State.tickReset_params (s : State) : s.tickReset.params = s.params := rfl
@[simp] theorem State.tickReset_trace (s : State) : s.tickReset.trace = s.trace := rfl
@[simp] theorem State.tickReset_responses (s : State) : s.tickReset.responses = s.responses := rfl
@[simp] theorem State.tickReset_sent (s : State) : s.tickReset.sent = s.sent := rfl
@[simp] theorem State.tickReset_words (s : State) : s.tickReset.words = s.words := rfl
@[simp] theorem State.tickReset_takes (s : State) : s.tickReset.takes = s.takes := rfl
@[simp] theorem State.tickReset_strobes (s : State) : s.tickReset.strobes = s.strobes := rfl
@[simp] theorem State.tickReset_levels (s : State) : s.tickReset.levels = s.levels := rfl
@[simp] theorem State.tickReset_resetLine (s : State) : s.tickReset.resetLine = s.resetLine.tail := rfl
@[simp] theorem State.tickReset_draws (s : State) : s.tickReset.draws = s.draws := rfl

/-! ### `State.takeResponse` -/

@[simp] theorem State.takeResponse_cfg (w : Word) (s : State) : (s.takeResponse w).cfg = s.cfg := rfl
@[simp] theorem State.takeResponse_var (w : Word) (s : State) : (s.takeResponse w).var = s.var := rfl
@[simp] theorem State.takeResponse_mode (w : Word) (s : State) : (s.takeResponse w).mode = s.mode := rfl
@[simp] theorem State.takeResponse_border (w : Word) (s : State) : (s.takeResponse w).border = s.border := rfl
@[simp] theorem State.takeResponse_p (w : Word) (s : State) : (s.takeResponse w).p = s.p := rfl
@[simp] theorem State.takeResponse_a (w : Word) (s : State) : (s.takeResponse w).a = s.a := rfl
@[simp] theorem State.takeResponse_fault (w : Word) (s : State) : (s.takeResponse w).fault = s.fault := rfl
@[simp] theorem State.takeResponse_seq (w : Word) (s : State) : (s.takeResponse w).seq = s.seq := rfl
@[simp] theorem State.takeResponse_parse (w : Word) (s : State) : (s.takeResponse w).parse = s.parse := rfl
@[simp] theorem State.takeResponse_resp (w : Word) (s : State) : (s.takeResponse w).resp = none := rfl
@[simp] theorem State.takeResponse_dly (w : Word) (s : State) : (s.takeResponse w).dly = s.dly := rfl
@[simp] theorem State.takeResponse_cs (w : Word) (s : State) : (s.takeResponse w).cs = s.cs := rfl
@[simp] theorem State.takeResponse_dc (w : Word) (s : State) : (s.takeResponse w).dc = s.dc := rfl
@[simp] theorem State.takeResponse_rst (w : Word) (s : State) : (s.takeResponse w).rst = s.rst := rfl
@[simp] theorem State.takeResponse_params (w : Word) (s : State) : (s.takeResponse w).params = s.params := rfl
@[simp] theorem State.takeResponse_trace (w : Word) (s : State) : (s.takeResponse w).trace = s.trace := rfl
@[simp] theorem State.takeResponse_responses (w : Word) (s : State) : (s.takeResponse w).responses = s.responses ++ [w] := rfl
@[simp] theorem State.takeResponse_sent (w : Word) (s : State) : (s.takeResponse w).sent = s.sent := rfl
@[simp] theorem State.takeResponse_words (w : Word) (s : State) : (s.takeResponse w).words = s.words := rfl
@[simp] theorem State.takeResponse_takes (w : Word) (s : State) : (s.takeResponse w).takes = s.takes := rfl
@[simp] theorem State.takeResponse_strobes (w : Word) (s : State) : (s.takeResponse w).strobes = s.strobes := rfl
@[simp] theorem State.takeResponse_levels (w : Word) (s : State) : (s.takeResponse w).levels = s.levels := rfl
@[simp] theorem State.takeResponse_resetLine (w : Word) (s : State) : (s.takeResponse w).resetLine = s.resetLine := rfl
@[simp] theorem State.takeResponse_draws (w : Word) (s : State) : (s.takeResponse w).draws = s.draws := rfl

/-! ### `State.writePlanes` -/

@[simp] theorem State.writePlanes_cfg (i b : Nat) (v : PixelValue) (s : State) : (s.writePlanes i b v).cfg = s.cfg := rfl
@[simp] theorem State.writePlanes_var (i b : Nat) (v : PixelValue) (s : State) : (s.writePlanes i b v).var = s.var := rfl
@[simp] theorem State.writePlanes_mode (i b : Nat) (v : PixelValue) (s : State) : (s.writePlanes i b v).mode = s.mode := rfl
@[simp] theorem State.writePlanes_border (i b : Nat) (v : PixelValue) (s : State) : (s.writePlanes i b v).border = s.border := rfl
@[simp] theorem State.writePlanes_p (i b : Nat) (v : PixelValue) (s : State) : (s.writePlanes i b v).p = s.p.writeBit i b (encPrimary v) := rfl
@[simp] theorem State.writePlanes_a (i b : Nat) (v : PixelValue) (s : State) : (s.writePlanes i b v).a = s.a.writeBit i b (encAccent v) := rfl
@[simp] theorem State.writePlanes_fault (i b : Nat) (v : PixelValue) (s : State) : (s.writePlanes i b v).fault = s.fault := rfl
@[simp] theorem State.writePlanes_seq (i b : Nat) (v : PixelValue) (s : State) : (s.writePlanes i b v).seq = s.seq := rfl
@[simp] theorem State.writePlanes_parse (i b : Nat) (v : PixelValue) (s : State) : (s.writePlanes i b v).parse = s.parse := rfl
@[simp] theorem State.writePlanes_resp (i b : Nat) (v : PixelValue) (s : State) : (s.writePlanes i b v).resp = s.resp := rfl
@[simp] theorem State.writePlanes_dly (i b : Nat) (v : PixelValue) (s : State) : (s.writePlanes i b v).dly = s.dly := rfl
@[simp] theorem State.writePlanes_cs (i b : Nat) (v : PixelValue) (s : State) : (s.writePlanes i b v).cs = s.cs := rfl
@[simp] theorem State.writePlanes_dc (i b : Nat) (v : PixelValue) (s : State) : (s.writePlanes i b v).dc = s.dc := rfl
@[simp] theorem State.writePlanes_rst (i b : Nat) (v : PixelValue) (s : State) : (s.writePlanes i b v).rst = s.rst := rfl
@[simp] theorem State.writePlanes_params (i b : Nat) (v : PixelValue) (s : State) : (s.writePlanes i b v).params = s.params := rfl
@[simp] theorem State.writePlanes_trace (i b : Nat) (v : PixelValue) (s : State) : (s.writePlanes i b v).trace = s.trace := rfl
@[simp] theorem State.writePlanes_responses (i b : Nat) (v : PixelValue) (s : State) : (s.writePlanes i b v).responses = s.responses := rfl
@[simp] theorem State.writePlanes_sent (i b : Nat) (v : PixelValue) (s : State) : (s.writePlanes i b v).sent = s.sent := rfl
@[simp] theorem State.writePlanes_words (i b : Nat) (v : PixelValue) (s : State) : (s.writePlanes i b v).words = s.words := rfl
@[simp] theorem State.writePlanes_takes (i b : Nat) (v : PixelValue) (s : State) : (s.writePlanes i b v).takes = s.takes := rfl
@[simp] theorem State.writePlanes_strobes (i b : Nat) (v : PixelValue) (s : State) : (s.writePlanes i b v).strobes = s.strobes := rfl
@[simp] theorem State.writePlanes_levels (i b : Nat) (v : PixelValue) (s : State) : (s.writePlanes i b v).levels = s.levels := rfl
@[simp] theorem State.writePlanes_resetLine (i b : Nat) (v : PixelValue) (s : State) : (s.writePlanes i b v).resetLine = s.resetLine := rfl
@[simp] theorem State.writePlanes_draws (i b : Nat) (v : PixelValue) (s : State) : (s.writePlanes i b v).draws = s.draws := rfl

/-! ### `State.powerOn` -/

@[simp] theorem State.powerOn_cfg (s : State) : s.powerOn.cfg = false := rfl
@[simp] theorem State.powerOn_var (s : State) : s.powerOn.var = .matching := rfl
@[simp] theorem State.powerOn_mode (s : State) : s.powerOn.mode = .bwr := rfl
@[simp] theorem State.powerOn_border (s : State) : s.powerOn.border = .white := rfl
@[simp] theorem State.powerOn_p (s : State) : s.powerOn.p = [] := rfl
@[simp] theorem State.powerOn_a (s : State) : s.powerOn.a = [] := rfl
@[simp] theorem State.powerOn_fault (s : State) : s.powerOn.fault = FaultBits.none := rfl
@[simp] theorem State.powerOn_seq (s : State) : s.powerOn.seq = .idle := rfl
@[simp] theorem State.powerOn_parse (s : State) : s.powerOn.parse = [] := rfl
@[simp] theorem State.powerOn_resp (s : State) : s.powerOn.resp = none := rfl
@[simp] theorem State.powerOn_dly (s : State) : s.powerOn.dly = false := rfl
@[simp] theorem State.powerOn_cs (s : State) : s.powerOn.cs = .high := rfl
@[simp] theorem State.powerOn_dc (s : State) : s.powerOn.dc = .low := rfl
@[simp] theorem State.powerOn_rst (s : State) : s.powerOn.rst = .high := rfl
@[simp] theorem State.powerOn_params (s : State) : s.powerOn.params = s.params := rfl
@[simp] theorem State.powerOn_trace (s : State) : s.powerOn.trace = s.trace := rfl
@[simp] theorem State.powerOn_responses (s : State) : s.powerOn.responses = s.responses := rfl
@[simp] theorem State.powerOn_sent (s : State) : s.powerOn.sent = 0 := rfl
@[simp] theorem State.powerOn_words (s : State) : s.powerOn.words = s.words := rfl
@[simp] theorem State.powerOn_takes (s : State) : s.powerOn.takes = s.takes := rfl
@[simp] theorem State.powerOn_strobes (s : State) : s.powerOn.strobes = s.strobes := rfl
@[simp] theorem State.powerOn_levels (s : State) : s.powerOn.levels = s.levels := rfl
@[simp] theorem State.powerOn_resetLine (s : State) : s.powerOn.resetLine = s.resetLine := rfl
@[simp] theorem State.powerOn_draws (s : State) : s.powerOn.draws = s.draws := rfl

/-! ### `State.offerCommand` -/

@[simp] theorem State.offerCommand_cfg (ws : List Word) (s : State) : (s.offerCommand ws).cfg = s.cfg := rfl
@[simp] theorem State.offerCommand_var (ws : List Word) (s : State) : (s.offerCommand ws).var = s.var := rfl
@[simp] theorem State.offerCommand_mode (ws : List Word) (s : State) : (s.offerCommand ws).mode = s.mode := rfl
@[simp] theorem State.offerCommand_border (ws : List Word) (s : State) : (s.offerCommand ws).border = s.border := rfl
@[simp] theorem State.offerCommand_p (ws : List Word) (s : State) : (s.offerCommand ws).p = s.p := rfl
@[simp] theorem State.offerCommand_a (ws : List Word) (s : State) : (s.offerCommand ws).a = s.a := rfl
@[simp] theorem State.offerCommand_fault (ws : List Word) (s : State) : (s.offerCommand ws).fault = s.fault := rfl
@[simp] theorem State.offerCommand_seq (ws : List Word) (s : State) : (s.offerCommand ws).seq = .idle := rfl
@[simp] theorem State.offerCommand_parse (ws : List Word) (s : State) : (s.offerCommand ws).parse = ws.dropLast := rfl
@[simp] theorem State.offerCommand_resp (ws : List Word) (s : State) : (s.offerCommand ws).resp = none := rfl
@[simp] theorem State.offerCommand_dly (ws : List Word) (s : State) : (s.offerCommand ws).dly = s.dly := rfl
@[simp] theorem State.offerCommand_cs (ws : List Word) (s : State) : (s.offerCommand ws).cs = s.cs := rfl
@[simp] theorem State.offerCommand_dc (ws : List Word) (s : State) : (s.offerCommand ws).dc = s.dc := rfl
@[simp] theorem State.offerCommand_rst (ws : List Word) (s : State) : (s.offerCommand ws).rst = s.rst := rfl
@[simp] theorem State.offerCommand_params (ws : List Word) (s : State) : (s.offerCommand ws).params = s.params := rfl
@[simp] theorem State.offerCommand_trace (ws : List Word) (s : State) : (s.offerCommand ws).trace = s.trace := rfl
@[simp] theorem State.offerCommand_responses (ws : List Word) (s : State) : (s.offerCommand ws).responses = s.responses := rfl
@[simp] theorem State.offerCommand_sent (ws : List Word) (s : State) : (s.offerCommand ws).sent = 0 := rfl
@[simp] theorem State.offerCommand_words (ws : List Word) (s : State) : (s.offerCommand ws).words = ws.getLast?.toList ++ s.words := rfl
@[simp] theorem State.offerCommand_takes (ws : List Word) (s : State) : (s.offerCommand ws).takes = s.takes := rfl
@[simp] theorem State.offerCommand_strobes (ws : List Word) (s : State) : (s.offerCommand ws).strobes = s.strobes := rfl
@[simp] theorem State.offerCommand_levels (ws : List Word) (s : State) : (s.offerCommand ws).levels = s.levels := rfl
@[simp] theorem State.offerCommand_resetLine (ws : List Word) (s : State) : (s.offerCommand ws).resetLine = [] := rfl
@[simp] theorem State.offerCommand_draws (ws : List Word) (s : State) : (s.offerCommand ws).draws = s.draws := rfl

end Sys2Proof.Machine
end

