-- ==== Sys2Proof/Laws/Memory.lean ====
section
/-! SUPPORT. The plane memories: read after write, the canonical form and its uniqueness, and what every memory
operation keeps. -/

namespace Sys2Proof.Machine

/-! ### The canonical form -/

theorem Memory.wfFrom_cons {lo k : Nat} {b : Byte} {m : Memory} :
    Memory.wfFrom lo ((k, b) :: m) = true ↔
      lo ≤ k ∧ b ≠ Memory.unlisted ∧ Memory.wfFrom (k + 1) m = true := by
  simp [Memory.wfFrom, Nat.ble_eq, and_assoc]

theorem Memory.wfFrom_mono {lo lo' : Nat} (h : lo' ≤ lo) {m : Memory} (hm : Memory.wfFrom lo m = true) :
    Memory.wfFrom lo' m = true := by
  cases m with
  | nil => rfl
  | cons c m =>
    obtain ⟨k, b⟩ := c
    rw [Memory.wfFrom_cons] at hm ⊢
    exact ⟨h.trans hm.1, hm.2⟩

/-- Below the first index of the canonical form every byte reads as unlisted. -/
theorem Memory.read_below {lo : Nat} {m : Memory} (hm : Memory.wfFrom lo m = true) {i : Nat} (h : i < lo) :
    m.read i = Memory.unlisted := by
  induction m generalizing lo with
  | nil => rfl
  | cons c m ih =>
    obtain ⟨k, b⟩ := c
    rw [Memory.wfFrom_cons] at hm
    have hk : i ≠ k := by omega
    simp only [Memory.read, hk, if_false]
    exact ih hm.2.2 (by omega)

theorem Memory.wfFrom_entry {lo i : Nat} (h : lo ≤ i) (v : Byte) (m : Memory)
    (hm : Memory.wfFrom (i + 1) m = true) : Memory.wfFrom lo (Memory.entry i v ++ m) = true := by
  unfold Memory.entry
  split
  · exact Memory.wfFrom_mono (by omega) hm
  · rename_i hv
    exact Memory.wfFrom_cons.2 ⟨h, hv, hm⟩

/-- PlaneWrite keeps the canonical form. -/
theorem Memory.wfFrom_write {lo i : Nat} (h : lo ≤ i) (v : Byte) {m : Memory} (hm : Memory.wfFrom lo m = true) :
    Memory.wfFrom lo (m.write i v) = true := by
  induction m generalizing lo with
  | nil => simpa [Memory.write] using Memory.wfFrom_entry h v [] rfl
  | cons c m ih =>
    obtain ⟨k, b⟩ := c
    have hm' := Memory.wfFrom_cons.1 hm
    unfold Memory.write
    split
    · rename_i hik
      exact Memory.wfFrom_entry h v _ (Memory.wfFrom_cons.2 ⟨hik, hm'.2⟩)
    · split
      · rename_i hik
        subst hik
        exact Memory.wfFrom_entry h v _ hm'.2.2
      · exact Memory.wfFrom_cons.2 ⟨hm'.1, hm'.2.1, ih (by omega) hm'.2.2⟩

theorem Memory.wf_write {m : Memory} (hm : m.wf = true) (i : Nat) (v : Byte) : (m.write i v).wf = true :=
  Memory.wfFrom_write (Nat.zero_le i) v hm

theorem Memory.wf_writeBit {m : Memory} (hm : m.wf = true) (i b : Nat) (on : Bool) :
    (m.writeBit i b on).wf = true := Memory.wf_write hm i _

theorem Memory.wfFrom_ofBytesFrom (i : Nat) (bytes : List Byte) :
    Memory.wfFrom i (Memory.ofBytesFrom i bytes) = true := by
  induction bytes generalizing i with
  | nil => rfl
  | cons b rest ih => exact Memory.wfFrom_entry (le_refl i) b _ (ih (i + 1))

theorem Memory.wf_ofBytes (bytes : List Byte) : (Memory.ofBytes bytes).wf = true :=
  Memory.wfFrom_ofBytesFrom 0 bytes

theorem Memory.wf_nil : Memory.wf [] = true := rfl

/-! ### Read after write -/

theorem Memory.read_entry_append_same {i : Nat} (v : Byte) {m : Memory}
    (hm : Memory.wfFrom (i + 1) m = true) : Memory.read (Memory.entry i v ++ m) i = v := by
  unfold Memory.entry
  split
  · rename_i hv
    rw [hv]
    exact Memory.read_below hm (Nat.lt_succ_self i)
  · simp [Memory.read]

theorem Memory.read_entry_append_other {i j : Nat} (h : j ≠ i) (v : Byte) (m : Memory) :
    Memory.read (Memory.entry i v ++ m) j = m.read j := by
  unfold Memory.entry
  split
  · rfl
  · simp [Memory.read, h]

theorem Memory.read_write_same_from {lo : Nat} {m : Memory} (hm : Memory.wfFrom lo m = true) (i : Nat) (v : Byte) :
    (m.write i v).read i = v := by
  induction m generalizing lo with
  | nil => simpa [Memory.write] using Memory.read_entry_append_same v (m := []) (i := i) rfl
  | cons c m ih =>
    obtain ⟨k, b⟩ := c
    have hm' := Memory.wfFrom_cons.1 hm
    unfold Memory.write
    split
    · rename_i hik
      exact Memory.read_entry_append_same v (Memory.wfFrom_cons.2 ⟨hik, hm'.2⟩)
    · split
      · rename_i hik
        subst hik
        exact Memory.read_entry_append_same v hm'.2.2
      · rename_i hik
        simp only [Memory.read, hik, if_false]
        exact ih hm'.2.2

/-- A read after a write to the same index gives the byte written. -/
theorem Memory.read_write_same {m : Memory} (hm : m.wf = true) (i : Nat) (v : Byte) : (m.write i v).read i = v :=
  Memory.read_write_same_from hm i v

/-- A write leaves every other index alone. -/
theorem Memory.read_write_other (m : Memory) {i j : Nat} (h : j ≠ i) (v : Byte) :
    (m.write i v).read j = m.read j := by
  induction m with
  | nil => simpa [Memory.write] using Memory.read_entry_append_other h v []
  | cons c m ih =>
    obtain ⟨k, b⟩ := c
    unfold Memory.write
    split
    · exact Memory.read_entry_append_other h v _
    · split
      · rename_i hik
        subst hik
        rw [Memory.read_entry_append_other h]
        simp [Memory.read, h]
      · simp only [Memory.read, ih]

theorem Memory.read_write {m : Memory} (hm : m.wf = true) (i j : Nat) (v : Byte) :
    (m.write i v).read j = if j = i then v else m.read j := by
  split
  · rename_i h
    rw [h, Memory.read_write_same hm]
  · rename_i h
    exact Memory.read_write_other m h v

@[simp] theorem Memory.read_nil (i : Nat) : Memory.read [] i = 0x00#8 := rfl

/-! ### Equal reads make equal memories -/

theorem Memory.ext_from {lo : Nat} {m m' : Memory} (hm : Memory.wfFrom lo m = true)
    (hm' : Memory.wfFrom lo m' = true) (h : ∀ i, m.read i = m'.read i) : m = m' := by
  induction m generalizing lo m' with
  | nil =>
    cases m' with
    | nil => rfl
    | cons c m' =>
      obtain ⟨k, b⟩ := c
      have hb := h k
      simp only [Memory.read, if_true] at hb
      exact absurd hb.symm (Memory.wfFrom_cons.1 hm').2.1
  | cons c m ih =>
    obtain ⟨k, b⟩ := c
    have hc := Memory.wfFrom_cons.1 hm
    cases m' with
    | nil =>
      have hb := h k
      simp only [Memory.read, if_true] at hb
      exact absurd hb hc.2.1
    | cons c' m' =>
      obtain ⟨k', b'⟩ := c'
      have hc' := Memory.wfFrom_cons.1 hm'
      have hkk : k = k' := by
        rcases Nat.lt_trichotomy k k' with hlt | heq | hgt
        · have hb := h k
          rw [Memory.read_below (Memory.wfFrom_cons.2 ⟨le_refl k', hc'.2⟩) hlt] at hb
          simp only [Memory.read, if_true] at hb
          exact absurd hb hc.2.1
        · exact heq
        · have hb := h k'
          rw [Memory.read_below (Memory.wfFrom_cons.2 ⟨le_refl k, hc.2⟩) hgt] at hb
          simp only [Memory.read, if_true] at hb
          exact absurd hb.symm hc'.2.1
      subst hkk
      have hbb : b = b' := by simpa [Memory.read] using h k
      subst hbb
      have hrest : m = m' := by
        refine ih hc.2.2 hc'.2.2 fun i => ?_
        by_cases hik : i = k
        · subst hik
          rw [Memory.read_below hc.2.2 (Nat.lt_succ_self i), Memory.read_below hc'.2.2 (Nat.lt_succ_self i)]
        · simpa [Memory.read, hik] using h i
      rw [hrest]

/-- Two canonical memories that read alike everywhere are equal. -/
theorem Memory.ext_read {m m' : Memory} (hm : m.wf = true) (hm' : m'.wf = true)
    (h : ∀ i, m.read i = m'.read i) : m = m' := Memory.ext_from hm hm' h

/-! ### Which indices are listed -/

theorem Memory.within_nil (lo hi : Nat) : Memory.within lo hi [] = true := rfl

theorem Memory.within_entry {lo hi i : Nat} (hlo : lo ≤ i) (hhi : i < hi) (v : Byte) (m : Memory) :
    Memory.within lo hi (Memory.entry i v ++ m) = Memory.within lo hi m := by
  unfold Memory.entry
  split
  · rfl
  · simp [Memory.within, hlo, hhi]

/-- A write at an index in [lo, hi) keeps the listed indices there. -/
theorem Memory.within_write {lo hi i : Nat} (hlo : lo ≤ i) (hhi : i < hi) (v : Byte) {m : Memory}
    (hm : Memory.within lo hi m = true) : Memory.within lo hi (m.write i v) = true := by
  induction m with
  | nil =>
    have := Memory.within_entry hlo hhi v []
    simpa [Memory.write, Memory.within] using this
  | cons c m ih =>
    obtain ⟨k, b⟩ := c
    have hm' : Memory.within lo hi m = true := by
      simp only [Memory.within, List.all_cons, Bool.and_eq_true] at hm ⊢
      exact hm.2
    unfold Memory.write
    split
    · rw [Memory.within_entry hlo hhi]
      exact hm
    · split
      · rw [Memory.within_entry hlo hhi]
        exact hm'
      · simp only [Memory.within, List.all_cons, Bool.and_eq_true] at hm ⊢
        exact ⟨hm.1, ih hm'⟩

/-- An index outside the listed range reads as unlisted. -/
theorem Memory.read_outside {lo hi : Nat} {m : Memory} (hm : Memory.within lo hi m = true) {i : Nat}
    (h : i < lo ∨ hi ≤ i) : m.read i = Memory.unlisted := by
  induction m with
  | nil => rfl
  | cons c m ih =>
    obtain ⟨k, b⟩ := c
    simp only [Memory.within, List.all_cons, Bool.and_eq_true, Nat.ble_eq, Nat.blt_eq] at hm
    have hk : i ≠ k := by omega
    simp only [Memory.read, hk, if_false]
    exact ih hm.2

/-! ### What RENDER sends of a plane -/

@[simp] theorem Memory.length_firstBytes (m : Memory) (n : Nat) : (m.firstBytes n).length = n := by
  simp [Memory.firstBytes]

@[simp] theorem Memory.getElem_firstBytes (m : Memory) (n i : Nat) (h : i < (m.firstBytes n).length) :
    (m.firstBytes n)[i] = m.read i := by
  simp [Memory.firstBytes]

end Sys2Proof.Machine
end

