-- ==== Sys2Proof/Laws/Pixel.lean ====
section
/-! SUPPORT. The translator, the plane encoding and WritePixel: what they can answer, what they leave alone, and why
the order of the writes of one command cannot be seen (spec/40_framebuffer.md R122 to R127). -/

namespace Sys2Proof.Machine

/-! ### The translator -/

/-- Everything an answer of the translator says (R123, R124). -/
theorem translator_eq_some {v : Variant} {g : Geometry} {x y idx bit : Nat} :
    translator v g x y = some (idx, bit) ↔
      0 ≤ ramCol v g x y ∧ idx = byteIndex g (ramRow v x y) (ramCol v g x y).toNat ∧
        bit = bitIndex (ramCol v g x y).toNat ∧ idx < planeLength g := by
  unfold translator
  constructor
  · intro h
    dsimp only at h
    split at h
    · cases h
    · split at h
      · cases h
      · cases h
        refine ⟨by omega, rfl, rfl, by omega⟩
  · rintro ⟨hc, rfl, rfl, hlt⟩
    dsimp only
    rw [if_neg (by omega), if_neg (by omega)]

/-- When the translator answers ADDR_ERR (R124). -/
theorem translator_eq_none {v : Variant} {g : Geometry} {x y : Nat} :
    translator v g x y = none ↔
      ramCol v g x y < 0 ∨ planeLength g ≤ byteIndex g (ramRow v x y) (ramCol v g x y).toNat := by
  unfold translator
  dsimp only
  split
  · simp_all
  · split
    · simp_all
    · simp_all

theorem bitIndex_le (col : Nat) : bitIndex col ≤ 7 := Nat.sub_le 7 _

theorem byteIndex_pos (g : Geometry) (row col : Nat) : 1 ≤ byteIndex g row col := by
  unfold byteIndex
  omega

/-- R53, R124: a translated index lies in [1, L), and its bit in [0, 7]. -/
theorem translator_bounds {v : Variant} {g : Geometry} {x y idx bit : Nat}
    (h : translator v g x y = some (idx, bit)) : 1 ≤ idx ∧ idx < planeLength g ∧ bit ≤ 7 := by
  obtain ⟨-, rfl, rfl, hlt⟩ := translator_eq_some.1 h
  exact ⟨byteIndex_pos _ _ _, hlt, bitIndex_le _⟩

/-- R7: the bytes per row are C / 8, where there is a row. -/
theorem bytesPerRow_eq {g : Geometry} (h : 1 ≤ g.rows) : bytesPerRow g = g.cols / 8 := by
  unfold bytesPerRow planeLength
  exact Nat.mul_div_cancel _ h

/-! ### Bits of a byte -/

theorem getLsbD_mask {b k : Nat} (hb : b ≤ 7) : (1#8 <<< b).getLsbD k = decide (k = b) := by
  by_cases hk : k = b
  · subst hk
    have : k < 8 := by omega
    simp [this]
  · by_cases h8 : k < 8
    · have : k < b ∨ k - b ≠ 0 := by omega
      rcases this with h | h
      · simp [BitVec.getLsbD_shiftLeft, h, hk]
      · simp [hk, h8]
        omega
    · simp [BitVec.getLsbD_of_ge _ _ (Nat.le_of_not_lt h8)]
      omega

/-- A masked byte differs from the old one at the mask's bit alone. -/
theorem getLsbD_maskedByte (on : Bool) (old : Byte) {b k : Nat} (hb : b ≤ 7) (hk : k < 8) :
    (maskedByte on old (1#8 <<< b)).getLsbD k = if k = b then on else old.getLsbD k := by
  unfold maskedByte
  by_cases hkb : k = b
  · subst hkb
    cases on
    · simp only [Bool.false_eq_true, if_false, BitVec.getLsbD_and, BitVec.getLsbD_not, getLsbD_mask hb]
      simp
    · simp only [if_true, BitVec.getLsbD_or, getLsbD_mask hb]
      simp
  · cases on
    · simp only [Bool.false_eq_true, if_false, BitVec.getLsbD_and, BitVec.getLsbD_not, getLsbD_mask hb]
      simp [hkb, hk]
    · simp only [if_true, BitVec.getLsbD_or, getLsbD_mask hb]
      simp [hkb]

/-- One bit of a plane after one bit was written. -/
theorem Memory.getLsbD_read_writeBit {m : Memory} (hm : m.wf = true) {idx bit : Nat} (hb : bit ≤ 7) (on : Bool)
    (i : Nat) {k : Nat} (hk : k < 8) :
    ((m.writeBit idx bit on).read i).getLsbD k =
      if i = idx ∧ k = bit then on else (m.read i).getLsbD k := by
  unfold Memory.writeBit
  rw [Memory.read_write hm]
  by_cases hi : i = idx
  · subst hi
    rw [if_pos rfl, getLsbD_maskedByte on _ hb hk]
    simp
  · rw [if_neg hi]
    simp [hi]

/-! ### WritePixel -/

/-- R122: the bounds check in plain terms. -/
theorem inBounds_iff {g : Geometry} {x y : Nat} : inBounds g x y = true ↔ x ≤ g.width ∧ y ≤ g.height := by
  simp [inBounds, Nat.ble_eq]

/-- What WritePixel can do (R126): nothing, flag F_ADDR, or write one bit of both planes. -/
theorem State.writePixel_cases (v : PixelValue) (x y : Nat) (s : State) :
    s.writePixel v x y = s ∨ s.writePixel v x y = s.flag ∨
      ∃ i b, inBounds s.geometry x y = true ∧ translator s.var s.geometry x y = some (i, b) ∧
        s.writePixel v x y = s.writePlanes i b v := by
  unfold State.writePixel
  split
  · rename_i hin
    split
    · exact Or.inr (Or.inl rfl)
    · rename_i i b ht
      exact Or.inr (Or.inr ⟨i, b, hin, ht, rfl⟩)
  · exact Or.inl rfl

/-- R122: out of bounds, nothing happens. -/
theorem State.writePixel_ignored {v : PixelValue} {x y : Nat} {s : State} (h : inBounds s.geometry x y = false) :
    s.writePixel v x y = s := by
  simp [State.writePixel, h]

/-- R124: an accepted coordinate outside the planes flags F_ADDR. -/
theorem State.writePixel_addr {v : PixelValue} {x y : Nat} {s : State} (h : inBounds s.geometry x y = true)
    (ht : translator s.var s.geometry x y = none) : s.writePixel v x y = s.flag := by
  simp [State.writePixel, h, ht]

/-- R126: an accepted coordinate inside the planes writes one bit of both. -/
theorem State.writePixel_hit {v : PixelValue} {x y i b : Nat} {s : State} (h : inBounds s.geometry x y = true)
    (ht : translator s.var s.geometry x y = some (i, b)) : s.writePixel v x y = s.writePlanes i b v := by
  simp [State.writePixel, h, ht]

@[simp] theorem State.writePixel_cfg (v : PixelValue) (x y : Nat) (s : State) :
    (s.writePixel v x y).cfg = s.cfg := by
  rcases State.writePixel_cases v x y s with h | h | ⟨i, b, _, _, h⟩ <;> rw [h] <;> rfl

@[simp] theorem State.writePixel_var (v : PixelValue) (x y : Nat) (s : State) :
    (s.writePixel v x y).var = s.var := by
  rcases State.writePixel_cases v x y s with h | h | ⟨i, b, _, _, h⟩ <;> rw [h] <;> rfl

@[simp] theorem State.writePixel_mode (v : PixelValue) (x y : Nat) (s : State) :
    (s.writePixel v x y).mode = s.mode := by
  rcases State.writePixel_cases v x y s with h | h | ⟨i, b, _, _, h⟩ <;> rw [h] <;> rfl

@[simp] theorem State.writePixel_border (v : PixelValue) (x y : Nat) (s : State) :
    (s.writePixel v x y).border = s.border := by
  rcases State.writePixel_cases v x y s with h | h | ⟨i, b, _, _, h⟩ <;> rw [h] <;> rfl

@[simp] theorem State.writePixel_seq (v : PixelValue) (x y : Nat) (s : State) :
    (s.writePixel v x y).seq = s.seq := by
  rcases State.writePixel_cases v x y s with h | h | ⟨i, b, _, _, h⟩ <;> rw [h] <;> rfl

@[simp] theorem State.writePixel_parse (v : PixelValue) (x y : Nat) (s : State) :
    (s.writePixel v x y).parse = s.parse := by
  rcases State.writePixel_cases v x y s with h | h | ⟨i, b, _, _, h⟩ <;> rw [h] <;> rfl

@[simp] theorem State.writePixel_resp (v : PixelValue) (x y : Nat) (s : State) :
    (s.writePixel v x y).resp = s.resp := by
  rcases State.writePixel_cases v x y s with h | h | ⟨i, b, _, _, h⟩ <;> rw [h] <;> rfl

@[simp] theorem State.writePixel_dly (v : PixelValue) (x y : Nat) (s : State) :
    (s.writePixel v x y).dly = s.dly := by
  rcases State.writePixel_cases v x y s with h | h | ⟨i, b, _, _, h⟩ <;> rw [h] <;> rfl

@[simp] theorem State.writePixel_cs (v : PixelValue) (x y : Nat) (s : State) :
    (s.writePixel v x y).cs = s.cs := by
  rcases State.writePixel_cases v x y s with h | h | ⟨i, b, _, _, h⟩ <;> rw [h] <;> rfl

@[simp] theorem State.writePixel_dc (v : PixelValue) (x y : Nat) (s : State) :
    (s.writePixel v x y).dc = s.dc := by
  rcases State.writePixel_cases v x y s with h | h | ⟨i, b, _, _, h⟩ <;> rw [h] <;> rfl

@[simp] theorem State.writePixel_rst (v : PixelValue) (x y : Nat) (s : State) :
    (s.writePixel v x y).rst = s.rst := by
  rcases State.writePixel_cases v x y s with h | h | ⟨i, b, _, _, h⟩ <;> rw [h] <;> rfl

@[simp] theorem State.writePixel_params (v : PixelValue) (x y : Nat) (s : State) :
    (s.writePixel v x y).params = s.params := by
  rcases State.writePixel_cases v x y s with h | h | ⟨i, b, _, _, h⟩ <;> rw [h] <;> rfl

@[simp] theorem State.writePixel_trace (v : PixelValue) (x y : Nat) (s : State) :
    (s.writePixel v x y).trace = s.trace := by
  rcases State.writePixel_cases v x y s with h | h | ⟨i, b, _, _, h⟩ <;> rw [h] <;> rfl

@[simp] theorem State.writePixel_responses (v : PixelValue) (x y : Nat) (s : State) :
    (s.writePixel v x y).responses = s.responses := by
  rcases State.writePixel_cases v x y s with h | h | ⟨i, b, _, _, h⟩ <;> rw [h] <;> rfl

@[simp] theorem State.writePixel_words (v : PixelValue) (x y : Nat) (s : State) :
    (s.writePixel v x y).words = s.words := by
  rcases State.writePixel_cases v x y s with h | h | ⟨i, b, _, _, h⟩ <;> rw [h] <;> rfl

@[simp] theorem State.writePixel_takes (v : PixelValue) (x y : Nat) (s : State) :
    (s.writePixel v x y).takes = s.takes := by
  rcases State.writePixel_cases v x y s with h | h | ⟨i, b, _, _, h⟩ <;> rw [h] <;> rfl

@[simp] theorem State.writePixel_strobes (v : PixelValue) (x y : Nat) (s : State) :
    (s.writePixel v x y).strobes = s.strobes := by
  rcases State.writePixel_cases v x y s with h | h | ⟨i, b, _, _, h⟩ <;> rw [h] <;> rfl

@[simp] theorem State.writePixel_levels (v : PixelValue) (x y : Nat) (s : State) :
    (s.writePixel v x y).levels = s.levels := by
  rcases State.writePixel_cases v x y s with h | h | ⟨i, b, _, _, h⟩ <;> rw [h] <;> rfl

@[simp] theorem State.writePixel_resetLine (v : PixelValue) (x y : Nat) (s : State) :
    (s.writePixel v x y).resetLine = s.resetLine := by
  rcases State.writePixel_cases v x y s with h | h | ⟨i, b, _, _, h⟩ <;> rw [h] <;> rfl

@[simp] theorem State.writePixel_draws (v : PixelValue) (x y : Nat) (s : State) :
    (s.writePixel v x y).draws = s.draws := by
  rcases State.writePixel_cases v x y s with h | h | ⟨i, b, _, _, h⟩ <;> rw [h] <;> rfl

@[simp] theorem State.writePixel_sent (v : PixelValue) (x y : Nat) (s : State) :
    (s.writePixel v x y).sent = s.sent := by
  rcases State.writePixel_cases v x y s with h | h | ⟨i, b, _, _, h⟩ <;> rw [h] <;> rfl

@[simp] theorem State.paint_cfg (v : PixelValue) (ps : List (Nat × Nat)) (s : State) :
    (s.paint v ps).cfg = s.cfg := by
  induction ps generalizing s with
  | nil => rfl
  | cons q rest ih => exact (ih _).trans (State.writePixel_cfg v q.1 q.2 s)

@[simp] theorem State.paint_var (v : PixelValue) (ps : List (Nat × Nat)) (s : State) :
    (s.paint v ps).var = s.var := by
  induction ps generalizing s with
  | nil => rfl
  | cons q rest ih => exact (ih _).trans (State.writePixel_var v q.1 q.2 s)

@[simp] theorem State.paint_mode (v : PixelValue) (ps : List (Nat × Nat)) (s : State) :
    (s.paint v ps).mode = s.mode := by
  induction ps generalizing s with
  | nil => rfl
  | cons q rest ih => exact (ih _).trans (State.writePixel_mode v q.1 q.2 s)

@[simp] theorem State.paint_border (v : PixelValue) (ps : List (Nat × Nat)) (s : State) :
    (s.paint v ps).border = s.border := by
  induction ps generalizing s with
  | nil => rfl
  | cons q rest ih => exact (ih _).trans (State.writePixel_border v q.1 q.2 s)

@[simp] theorem State.paint_seq (v : PixelValue) (ps : List (Nat × Nat)) (s : State) :
    (s.paint v ps).seq = s.seq := by
  induction ps generalizing s with
  | nil => rfl
  | cons q rest ih => exact (ih _).trans (State.writePixel_seq v q.1 q.2 s)

@[simp] theorem State.paint_parse (v : PixelValue) (ps : List (Nat × Nat)) (s : State) :
    (s.paint v ps).parse = s.parse := by
  induction ps generalizing s with
  | nil => rfl
  | cons q rest ih => exact (ih _).trans (State.writePixel_parse v q.1 q.2 s)

@[simp] theorem State.paint_resp (v : PixelValue) (ps : List (Nat × Nat)) (s : State) :
    (s.paint v ps).resp = s.resp := by
  induction ps generalizing s with
  | nil => rfl
  | cons q rest ih => exact (ih _).trans (State.writePixel_resp v q.1 q.2 s)

@[simp] theorem State.paint_dly (v : PixelValue) (ps : List (Nat × Nat)) (s : State) :
    (s.paint v ps).dly = s.dly := by
  induction ps generalizing s with
  | nil => rfl
  | cons q rest ih => exact (ih _).trans (State.writePixel_dly v q.1 q.2 s)

@[simp] theorem State.paint_cs (v : PixelValue) (ps : List (Nat × Nat)) (s : State) :
    (s.paint v ps).cs = s.cs := by
  induction ps generalizing s with
  | nil => rfl
  | cons q rest ih => exact (ih _).trans (State.writePixel_cs v q.1 q.2 s)

@[simp] theorem State.paint_dc (v : PixelValue) (ps : List (Nat × Nat)) (s : State) :
    (s.paint v ps).dc = s.dc := by
  induction ps generalizing s with
  | nil => rfl
  | cons q rest ih => exact (ih _).trans (State.writePixel_dc v q.1 q.2 s)

@[simp] theorem State.paint_rst (v : PixelValue) (ps : List (Nat × Nat)) (s : State) :
    (s.paint v ps).rst = s.rst := by
  induction ps generalizing s with
  | nil => rfl
  | cons q rest ih => exact (ih _).trans (State.writePixel_rst v q.1 q.2 s)

@[simp] theorem State.paint_params (v : PixelValue) (ps : List (Nat × Nat)) (s : State) :
    (s.paint v ps).params = s.params := by
  induction ps generalizing s with
  | nil => rfl
  | cons q rest ih => exact (ih _).trans (State.writePixel_params v q.1 q.2 s)

@[simp] theorem State.paint_trace (v : PixelValue) (ps : List (Nat × Nat)) (s : State) :
    (s.paint v ps).trace = s.trace := by
  induction ps generalizing s with
  | nil => rfl
  | cons q rest ih => exact (ih _).trans (State.writePixel_trace v q.1 q.2 s)

@[simp] theorem State.paint_responses (v : PixelValue) (ps : List (Nat × Nat)) (s : State) :
    (s.paint v ps).responses = s.responses := by
  induction ps generalizing s with
  | nil => rfl
  | cons q rest ih => exact (ih _).trans (State.writePixel_responses v q.1 q.2 s)

@[simp] theorem State.paint_words (v : PixelValue) (ps : List (Nat × Nat)) (s : State) :
    (s.paint v ps).words = s.words := by
  induction ps generalizing s with
  | nil => rfl
  | cons q rest ih => exact (ih _).trans (State.writePixel_words v q.1 q.2 s)

@[simp] theorem State.paint_takes (v : PixelValue) (ps : List (Nat × Nat)) (s : State) :
    (s.paint v ps).takes = s.takes := by
  induction ps generalizing s with
  | nil => rfl
  | cons q rest ih => exact (ih _).trans (State.writePixel_takes v q.1 q.2 s)

@[simp] theorem State.paint_strobes (v : PixelValue) (ps : List (Nat × Nat)) (s : State) :
    (s.paint v ps).strobes = s.strobes := by
  induction ps generalizing s with
  | nil => rfl
  | cons q rest ih => exact (ih _).trans (State.writePixel_strobes v q.1 q.2 s)

@[simp] theorem State.paint_levels (v : PixelValue) (ps : List (Nat × Nat)) (s : State) :
    (s.paint v ps).levels = s.levels := by
  induction ps generalizing s with
  | nil => rfl
  | cons q rest ih => exact (ih _).trans (State.writePixel_levels v q.1 q.2 s)

@[simp] theorem State.paint_resetLine (v : PixelValue) (ps : List (Nat × Nat)) (s : State) :
    (s.paint v ps).resetLine = s.resetLine := by
  induction ps generalizing s with
  | nil => rfl
  | cons q rest ih => exact (ih _).trans (State.writePixel_resetLine v q.1 q.2 s)

@[simp] theorem State.paint_draws (v : PixelValue) (ps : List (Nat × Nat)) (s : State) :
    (s.paint v ps).draws = s.draws := by
  induction ps generalizing s with
  | nil => rfl
  | cons q rest ih => exact (ih _).trans (State.writePixel_draws v q.1 q.2 s)

@[simp] theorem State.paint_sent (v : PixelValue) (ps : List (Nat × Nat)) (s : State) :
    (s.paint v ps).sent = s.sent := by
  induction ps generalizing s with
  | nil => rfl
  | cons q rest ih => exact (ih _).trans (State.writePixel_sent v q.1 q.2 s)

@[simp] theorem State.geometry_writePixel (v : PixelValue) (x y : Nat) (s : State) :
    (s.writePixel v x y).geometry = s.geometry := by
  simp [State.geometry]

@[simp] theorem State.geometry_paint (v : PixelValue) (ps : List (Nat × Nat)) (s : State) :
    (s.paint v ps).geometry = s.geometry := by
  simp [State.geometry]

/-- Two states with the same fields, but for the planes and FAULT, which are compared apart. -/
theorem State.eq_of_planes {s t u : State}
    (hs : s = { u with p := s.p, a := s.a, fault := s.fault })
    (ht : t = { u with p := t.p, a := t.a, fault := t.fault })
    (hp : s.p = t.p) (ha : s.a = t.a) (hf : s.fault = t.fault) : s = t := by
  rw [hs, ht, hp, ha, hf]

/-- The frame of WritePixel: the planes and FAULT alone can change. -/
theorem State.writePixel_frame (v : PixelValue) (x y : Nat) (s : State) :
    s.writePixel v x y =
      { s with
        p := (s.writePixel v x y).p, a := (s.writePixel v x y).a, fault := (s.writePixel v x y).fault } := by
  rcases State.writePixel_cases v x y s with h | h | ⟨i, b, _, _, h⟩ <;> rw [h] <;> rfl

/-- The frame of a list of pixel writes. -/
theorem State.paint_frame (v : PixelValue) (ps : List (Nat × Nat)) (s : State) :
    s.paint v ps =
      { s with p := (s.paint v ps).p, a := (s.paint v ps).a, fault := (s.paint v ps).fault } := by
  induction ps generalizing s with
  | nil => rfl
  | cons q rest ih =>
    have h1 := ih (s.writePixel v q.1 q.2)
    have h2 := State.writePixel_frame v q.1 q.2 s
    rw [h2] at h1
    have h3 : s.paint v (q :: rest) = (s.writePixel v q.1 q.2).paint v rest := rfl
    rw [h3, h2]
    exact h1

theorem State.paint_cons (v : PixelValue) (x y : Nat) (rest : List (Nat × Nat)) (s : State) :
    s.paint v ((x, y) :: rest) = (s.writePixel v x y).paint v rest := rfl

theorem State.paint_append (v : PixelValue) (ps qs : List (Nat × Nat)) (s : State) :
    s.paint v (ps ++ qs) = (s.paint v ps).paint v qs := by
  induction ps generalizing s with
  | nil => rfl
  | cons q rest ih => exact ih _

/-- The fault register after WritePixel: F_ADDR is set where the coordinate is accepted and lies outside the planes. -/
theorem State.writePixel_fault (v : PixelValue) (x y : Nat) (s : State) :
    (s.writePixel v x y).fault =
      if inBounds s.geometry x y = true ∧ translator s.var s.geometry x y = none then s.fault.set .addr
      else s.fault := by
  unfold State.writePixel
  split
  · rename_i hin
    split
    · rename_i ht
      simp [hin, ht]
    · rename_i i b ht
      simp [ht]
  · rename_i hin
    simp [hin]

theorem State.lands_iff (s : State) (x y i k : Nat) :
    s.lands x y i k ↔ inBounds s.geometry x y = true ∧ translator s.var s.geometry x y = some (i, k) := by
  rw [inBounds_iff]
  rfl

theorem State.misses_iff (s : State) (x y : Nat) :
    s.misses x y ↔ inBounds s.geometry x y = true ∧ translator s.var s.geometry x y = none := by
  rw [inBounds_iff]
  rfl

theorem State.lands_writePixel (s : State) (v : PixelValue) (x' y' x y i k : Nat) :
    (s.writePixel v x' y').lands x y i k ↔ s.lands x y i k := by
  simp [State.lands]

open Classical in
/-- One bit of the primary plane after WritePixel. -/
theorem State.getLsbD_writePixel_p {s : State} (hm : s.p.wf = true) (v : PixelValue) (x y i : Nat) {k : Nat}
    (hk : k < 8) :
    (((s.writePixel v x y).p.read i).getLsbD k) =
      if s.lands x y i k then encPrimary v else (s.p.read i).getLsbD k := by
  unfold State.writePixel
  rw [if_congr (State.lands_iff s x y i k) rfl rfl]
  by_cases hin : inBounds s.geometry x y = true
  · rw [if_pos hin]
    cases ht : translator s.var s.geometry x y with
    | none => simp
    | some ib =>
      obtain ⟨i', b'⟩ := ib
      have hb := (translator_bounds ht).2.2
      simp only [State.writePlanes_p, Memory.getLsbD_read_writeBit hm hb _ i hk, hin, true_and,
        Option.some.injEq, Prod.mk.injEq, eq_comm]
  · rw [if_neg hin]
    simp [hin]

open Classical in
/-- One bit of the accent plane after WritePixel. -/
theorem State.getLsbD_writePixel_a {s : State} (hm : s.a.wf = true) (v : PixelValue) (x y i : Nat) {k : Nat}
    (hk : k < 8) :
    (((s.writePixel v x y).a.read i).getLsbD k) =
      if s.lands x y i k then encAccent v else (s.a.read i).getLsbD k := by
  unfold State.writePixel
  rw [if_congr (State.lands_iff s x y i k) rfl rfl]
  by_cases hin : inBounds s.geometry x y = true
  · rw [if_pos hin]
    cases ht : translator s.var s.geometry x y with
    | none => simp
    | some ib =>
      obtain ⟨i', b'⟩ := ib
      have hb := (translator_bounds ht).2.2
      simp only [State.writePlanes_a, Memory.getLsbD_read_writeBit hm hb _ i hk, hin, true_and,
        Option.some.injEq, Prod.mk.injEq, eq_comm]
  · rw [if_neg hin]
    simp [hin]

/-- WritePixel keeps the canonical form of both planes. -/
theorem State.writePixel_wf (v : PixelValue) (x y : Nat) {s : State} (hp : s.p.wf = true) (ha : s.a.wf = true) :
    (s.writePixel v x y).p.wf = true ∧ (s.writePixel v x y).a.wf = true := by
  rcases State.writePixel_cases v x y s with h | h | ⟨i, b, _, _, h⟩
  · rw [h]; exact ⟨hp, ha⟩
  · rw [h]; exact ⟨hp, ha⟩
  · rw [h]; exact ⟨Memory.wf_writeBit hp _ _ _, Memory.wf_writeBit ha _ _ _⟩

/-- A list of pixel writes keeps the canonical form of both planes. -/
theorem State.paint_wf (v : PixelValue) (ps : List (Nat × Nat)) {s : State} (hp : s.p.wf = true)
    (ha : s.a.wf = true) : (s.paint v ps).p.wf = true ∧ (s.paint v ps).a.wf = true := by
  induction ps generalizing s with
  | nil => exact ⟨hp, ha⟩
  | cons q rest ih =>
    have h := State.writePixel_wf v q.1 q.2 hp ha
    exact ih h.1 h.2

open Classical in
/-- One bit of the primary plane after a list of pixel writes with one value: the value's bit where some pixel lands on
it, else the old bit. -/
theorem State.getLsbD_paint_p (v : PixelValue) (ps : List (Nat × Nat)) {s : State} (hp : s.p.wf = true)
    (ha : s.a.wf = true) (i : Nat) {k : Nat} (hk : k < 8) :
    ((s.paint v ps).p.read i).getLsbD k =
      if ∃ q ∈ ps, s.lands q.1 q.2 i k then encPrimary v else (s.p.read i).getLsbD k := by
  induction ps generalizing s with
  | nil => simp [State.paint]
  | cons q rest ih =>
    have hw := State.writePixel_wf v q.1 q.2 hp ha
    rw [State.paint_cons, ih hw.1 hw.2, State.getLsbD_writePixel_p hp v _ _ i hk]
    simp only [State.lands_writePixel, List.mem_cons, exists_eq_or_imp]
    by_cases h1 : s.lands q.1 q.2 i k <;> by_cases h2 : ∃ a ∈ rest, s.lands a.1 a.2 i k <;> simp [h1, h2]

open Classical in
/-- One bit of the accent plane after a list of pixel writes with one value. -/
theorem State.getLsbD_paint_a (v : PixelValue) (ps : List (Nat × Nat)) {s : State} (hp : s.p.wf = true)
    (ha : s.a.wf = true) (i : Nat) {k : Nat} (hk : k < 8) :
    ((s.paint v ps).a.read i).getLsbD k =
      if ∃ q ∈ ps, s.lands q.1 q.2 i k then encAccent v else (s.a.read i).getLsbD k := by
  induction ps generalizing s with
  | nil => simp [State.paint]
  | cons q rest ih =>
    have hw := State.writePixel_wf v q.1 q.2 hp ha
    rw [State.paint_cons, ih hw.1 hw.2, State.getLsbD_writePixel_a ha v _ _ i hk]
    simp only [State.lands_writePixel, List.mem_cons, exists_eq_or_imp]
    by_cases h1 : s.lands q.1 q.2 i k <;> by_cases h2 : ∃ a ∈ rest, s.lands a.1 a.2 i k <;> simp [h1, h2]

theorem FaultBits.set_set (k : FaultKind) (f : FaultBits) : (f.set k).set k = f.set k := by
  cases k <;> rfl

open Classical in
/-- FAULT after a list of pixel writes: F_ADDR is set where some pixel misses the planes. -/
theorem State.paint_fault (v : PixelValue) (ps : List (Nat × Nat)) (s : State) :
    (s.paint v ps).fault = if ∃ q ∈ ps, s.misses q.1 q.2 then s.fault.set .addr else s.fault := by
  induction ps generalizing s with
  | nil => simp [State.paint]
  | cons q rest ih =>
    have hmiss : ∀ x y, (s.writePixel v q.1 q.2).misses x y ↔ s.misses x y := by
      intro x y
      simp [State.misses]
    have hf : (s.writePixel v q.1 q.2).fault = if s.misses q.1 q.2 then s.fault.set .addr else s.fault := by
      rw [State.writePixel_fault]
      exact if_congr (State.misses_iff s q.1 q.2).symm rfl rfl
    rw [State.paint_cons, ih, hf]
    simp only [hmiss, List.mem_cons, exists_eq_or_imp]
    by_cases h1 : s.misses q.1 q.2 <;> by_cases h2 : ∃ a ∈ rest, s.misses a.1 a.2 <;>
      simp [h1, h2, FaultBits.set_set]

/-- WritePixel lists indices from 1 to L - 1 alone (R53, R124). -/
theorem State.writePixel_within (v : PixelValue) (x y : Nat) {s : State}
    (hp : s.p.within 1 (planeLength s.geometry) = true) (ha : s.a.within 1 (planeLength s.geometry) = true) :
    (s.writePixel v x y).p.within 1 (planeLength s.geometry) = true ∧
      (s.writePixel v x y).a.within 1 (planeLength s.geometry) = true := by
  rcases State.writePixel_cases v x y s with h | h | ⟨i, b, _, ht, h⟩
  · rw [h]; exact ⟨hp, ha⟩
  · rw [h]; exact ⟨hp, ha⟩
  · obtain ⟨h1, h2, _⟩ := translator_bounds ht
    rw [h]
    exact ⟨Memory.within_write h1 h2 _ hp, Memory.within_write h1 h2 _ ha⟩

/-- A list of pixel writes lists indices from 1 to L - 1 alone. -/
theorem State.paint_within (v : PixelValue) (ps : List (Nat × Nat)) {s : State}
    (hp : s.p.within 1 (planeLength s.geometry) = true) (ha : s.a.within 1 (planeLength s.geometry) = true) :
    (s.paint v ps).p.within 1 (planeLength s.geometry) = true ∧
      (s.paint v ps).a.within 1 (planeLength s.geometry) = true := by
  induction ps generalizing s with
  | nil => exact ⟨hp, ha⟩
  | cons q rest ih =>
    have h := State.writePixel_within v q.1 q.2 hp ha
    have h' := ih (s := s.writePixel v q.1 q.2)
    rw [State.geometry_writePixel] at h'
    exact h' h.1 h.2

end Sys2Proof.Machine
end

