-- ==== Sys2Proof/Laws/Ops.lean ====
section
/-! SUPPORT. One lemma for each shared operation that says once what it can do: emitting, the inputs of the other
agents, the sequencer, the command port, and the step. -/

namespace Sys2Proof.Machine

/-! ### Faults -/

@[simp] theorem FaultBits.has_set_self (k : FaultKind) (f : FaultBits) : (f.set k).has k = true := by
  cases k <;> rfl

/-- Setting one bit leaves the bits that were set, set (R261). -/
theorem FaultBits.has_set_mono (k j : FaultKind) (f : FaultBits) (h : f.has j = true) : (f.set k).has j = true := by
  cases k <;> cases j <;> simp_all [FaultBits.set, FaultBits.has]

/-- Setting one bit changes no other bit. -/
theorem FaultBits.has_set_other {k j : FaultKind} (h : j ≠ k) (f : FaultBits) : (f.set k).has j = f.has j := by
  cases k <;> cases j <;> first | rfl | exact absurd rfl h

/-- R262, R238: an illegal command sets F_ILLEGAL_CMD, and responds with zero where its opcode always responds. -/
theorem State.rejectCommand_eq (opc : Opcode) (s : State) :
    s.rejectCommand opc =
      { s with
        fault := s.fault.set .illegalCmd
        resp := if respondsAlways opc then some 0x00000000#32 else s.resp } := by
  unfold State.rejectCommand
  split <;> rfl

/-! ### Emitting events -/

/-- Several events add to the trace in order. -/
@[simp] theorem State.emitAll_trace (es : List Event) (s : State) : (s.emitAll es).trace = s.trace ++ es := by
  induction es generalizing s with
  | nil => simp [State.emitAll]
  | cons e rest ih => simp [State.emitAll, ih]

/-- Emitting writes the trace and the three latches alone. -/
theorem State.emitAll_frame (es : List Event) (s : State) :
    s.emitAll es =
      { s with
        trace := s.trace ++ es
        cs := (s.emitAll es).cs, dc := (s.emitAll es).dc, rst := (s.emitAll es).rst } := by
  induction es generalizing s with
  | nil => simp [State.emitAll]
  | cons e rest ih =>
    have h : s.emitAll (e :: rest) = (s.emit e).emitAll rest := rfl
    have h' := ih (s.emit e)
    rw [h, h']
    simp [State.emit]

/-- Emitting two lists of events is emitting one after the other. -/
theorem State.emitAll_append (es fs : List Event) (s : State) :
    s.emitAll (es ++ fs) = (s.emitAll es).emitAll fs := by
  induction es generalizing s with
  | nil => rfl
  | cons e rest ih => exact ih _

/-- A framed transaction leaves CS high, DC low or high as it has no data or some, and RST as it was (R96). -/
theorem State.emitAll_txEvents (c : Byte) (d : List Byte) (s : State) :
    s.emitAll (txEvents c d) =
      { s with
        trace := s.trace ++ txEvents c d
        cs := .high
        dc := if d.isEmpty then .low else .high } := by
  cases d <;> simp [txEvents, dataPhase, State.emitAll, State.emit, Event.latch]

/-! ### Inputs of the other agents -/

/-- A busy level drawn changes the panel's script and the count of free values alone. -/
theorem State.drawLevel_frame (s : State) :
    s.drawLevel.2 = { s with levels := s.drawLevel.2.levels, draws := s.drawLevel.2.draws } := by
  unfold State.drawLevel
  split <;> rfl

/-- A strobe drawn changes the timer's script and the count of free values alone. -/
theorem State.drawStrobe_frame (s : State) :
    s.drawStrobe.2 = { s with strobes := s.drawStrobe.2.strobes, draws := s.drawStrobe.2.draws } := by
  unfold State.drawStrobe
  split <;> rfl

/-- A take drawn changes the host's script and the count of free values alone. -/
theorem State.drawTake_frame (s : State) :
    s.drawTake.2 = { s with takes := s.drawTake.2.takes, draws := s.drawTake.2.draws } := by
  unfold State.drawTake
  split <;> rfl

/-- Drawing a level and using up an entry of the reset script do not disturb each other. -/
theorem State.drawLevel_tickReset (s : State) :
    s.tickReset.drawLevel = (s.drawLevel.1, s.drawLevel.2.tickReset) := by
  simp only [State.drawLevel, State.tickReset]
  cases s.levels <;> rfl

/-- The same for a strobe. -/
theorem State.drawStrobe_tickReset (s : State) :
    s.tickReset.drawStrobe = (s.drawStrobe.1, s.drawStrobe.2.tickReset) := by
  simp only [State.drawStrobe, State.tickReset]
  cases s.strobes <;> rfl

/-- The same for a take. -/
theorem State.drawTake_tickReset (s : State) :
    s.tickReset.drawTake = (s.drawTake.1, s.drawTake.2.tickReset) := by
  simp only [State.drawTake, State.tickReset]
  cases s.takes <;> rfl

theorem State.drawLevel_cons {s : State} {l : Level} {rest : List Level} (h : s.levels = l :: rest) :
    s.drawLevel = (l, { s with levels := rest }) := by
  simp [State.drawLevel, h]

theorem State.drawStrobe_cons {s : State} {b : Bool} {rest : List Bool} (h : s.strobes = b :: rest) :
    s.drawStrobe = (b, { s with strobes := rest }) := by
  simp [State.drawStrobe, h]

theorem State.drawTake_cons {s : State} {b : Bool} {rest : List Bool} (h : s.takes = b :: rest) :
    s.drawTake = (b, { s with takes := rest }) := by
  simp [State.drawTake, h]

/-! ### The sequencer -/

/-- What one step of the sequencer can do (R22, R32, R171, R180, R184). -/
inductive SequencerCase (spc : Nat) (s : State) : State → Prop where
  /-- A delay is pending and DLY_DONE does not arrive. -/
  | held (hd : s.dly = true) (hb : s.drawStrobe.1 = false) : SequencerCase spc s s.drawStrobe.2
  /-- A delay is pending and DLY_DONE arrives. -/
  | released (hd : s.dly = true) (hb : s.drawStrobe.1 = true) :
      SequencerCase spc s ((s.drawStrobe.2.setDly false).setSeq (.run (afterDelay spc (s.renderSeq[spc]?))))
  /-- A `Pin` action. -/
  | pin (hd : s.dly = false) (l : Line) (v : Level) (ha : s.renderSeq[spc]? = some (.pin l v)) :
      SequencerCase spc s ((s.emit (.pin l v)).completeAction spc)
  /-- A `Delay` action starts. -/
  | delay (hd : s.dly = false) (ms : Nat) (ha : s.renderSeq[spc]? = some (.delay ms)) :
      SequencerCase spc s ((s.emit (.delayReq ms)).setDly true)
  /-- An event of a transaction that is not its last one. -/
  | send (hd : s.dly = false) (n : TxName) (ha : s.renderSeq[spc]? = some (.tx n)) (e : Event)
      (he : (s.transaction n)[s.sent]? = some e) (hlt : s.sent + 1 < (s.transaction n).length) :
      SequencerCase spc s ((s.emit e).setSent (s.sent + 1))
  /-- The last event of a transaction. -/
  | sendLast (hd : s.dly = false) (n : TxName) (ha : s.renderSeq[spc]? = some (.tx n)) (e : Event)
      (he : (s.transaction n)[s.sent]? = some e) (hlt : s.sent + 1 = (s.transaction n).length) :
      SequencerCase spc s ((s.emit e).completeAction spc)
  /-- A transaction with no event left, in a state that no run reaches (log 20). -/
  | sentAll (hd : s.dly = false) (n : TxName) (ha : s.renderSeq[spc]? = some (.tx n))
      (hlt : (s.transaction n).length ≤ s.sent) : SequencerCase spc s (s.completeAction spc)
  /-- A Sync samples an asserted busy level. -/
  | busy (hd : s.dly = false) (ha : s.renderSeq[spc]? = some .sync) (hs : s.sent = 0)
      (hl : s.drawLevel.1 = s.params.busyActive) :
      SequencerCase spc s ((s.drawLevel.2.emit (.busySample s.drawLevel.1)).setSent 1)
  /-- A Sync samples a cleared busy level and is complete. -/
  | ready (hd : s.dly = false) (ha : s.renderSeq[spc]? = some .sync) (hs : s.sent = 0)
      (hl : s.drawLevel.1 ≠ s.params.busyActive) :
      SequencerCase spc s ((s.drawLevel.2.emit (.busySample s.drawLevel.1)).completeAction spc)
  /-- A Sync requests 10 ms after an asserted sample. -/
  | repoll (hd : s.dly = false) (ha : s.renderSeq[spc]? = some .sync) (hs : s.sent ≠ 0) :
      SequencerCase spc s (((s.emit (.delayReq 10)).setDly true).setSent 0)
  /-- The sequence is over. -/
  | finished (hd : s.dly = false) (ha : s.renderSeq[spc]? = none) : SequencerCase spc s (s.setSeq .idle)

/-- What a step of a transaction does, by how many of its events are sent. -/
theorem State.sendNext_cases (spc : Nat) (n : TxName) (s : State) :
    (∃ e, (s.transaction n)[s.sent]? = some e ∧ s.sent + 1 < (s.transaction n).length ∧
        s.sendNext spc n = (s.emit e).setSent (s.sent + 1)) ∨
      (∃ e, (s.transaction n)[s.sent]? = some e ∧ s.sent + 1 = (s.transaction n).length ∧
        s.sendNext spc n = (s.emit e).completeAction spc) ∨
      ((s.transaction n).length ≤ s.sent ∧ s.sendNext spc n = s.completeAction spc) := by
  have hget : ((s.transaction n).drop s.sent)[0]? = (s.transaction n)[s.sent]? := by simp
  have hlen : ((s.transaction n).drop s.sent).length = (s.transaction n).length - s.sent := List.length_drop
  unfold State.sendNext
  generalize (s.transaction n).drop s.sent = rest at hget hlen
  match rest with
  | [] => exact Or.inr (Or.inr ⟨by simp at hlen; omega, rfl⟩)
  | [e] => exact Or.inr (Or.inl ⟨e, hget.symm, by simp at hlen; omega, rfl⟩)
  | e :: _ :: _ => exact Or.inl ⟨e, hget.symm, by simp at hlen; omega, rfl⟩

/-- The sequencer's step is one of those cases. -/
theorem State.sequencerStep_cases (spc : Nat) (s : State) : SequencerCase spc s (s.sequencerStep spc) := by
  unfold State.sequencerStep
  cases hd : s.dly with
  | true =>
    simp only [if_true, State.awaitDelay]
    cases hb : s.drawStrobe.1 with
    | true => exact .released hd hb
    | false => exact .held hd hb
  | false =>
    simp only [Bool.false_eq_true, if_false]
    cases ha : s.renderSeq[spc]? with
    | none => exact .finished hd ha
    | some act =>
      cases act with
      | pin l v => exact .pin hd l v ha
      | delay ms => exact .delay hd ms ha
      | tx n =>
        dsimp only [State.perform]
        rcases State.sendNext_cases spc n s with ⟨e, he, hlt, h⟩ | ⟨e, he, hlt, h⟩ | ⟨hlt, h⟩ <;> rw [h]
        · exact .send hd n ha e he hlt
        · exact .sendLast hd n ha e he hlt
        · exact .sentAll hd n ha hlt
      | sync =>
        dsimp only [State.perform, State.syncPass]
        by_cases hs : s.sent = 0
        · rw [if_pos hs]
          by_cases hl : s.drawLevel.1 = s.params.busyActive
          · rw [show (if s.sampleBusy.1 = s.params.busyActive then _ else _) = _ from if_pos hl]
            exact .busy hd ha hs hl
          · rw [show (if s.sampleBusy.1 = s.params.busyActive then _ else _) = _ from if_neg hl]
            exact .ready hd ha hs hl
        · rw [if_neg hs]
          exact .repoll hd ha hs

/-- The sequencer writes SEQ, DLY, the latches, the trace and its own count, and uses up inputs: nothing else (R56,
R170, R173). -/
theorem State.sequencerStep_frame (spc : Nat) (s : State) :
    s.sequencerStep spc =
      { s with
        seq := (s.sequencerStep spc).seq, dly := (s.sequencerStep spc).dly
        cs := (s.sequencerStep spc).cs, dc := (s.sequencerStep spc).dc, rst := (s.sequencerStep spc).rst
        trace := (s.sequencerStep spc).trace, sent := (s.sequencerStep spc).sent
        strobes := (s.sequencerStep spc).strobes, levels := (s.sequencerStep spc).levels, draws := (s.sequencerStep spc).draws } := by
  have h := State.sequencerStep_cases spc s
  generalize s.sequencerStep spc = t at h ⊢
  cases h with
  | held hd hb => rw [State.drawStrobe_frame s]
  | released hd hb => rw [State.drawStrobe_frame s]; rfl
  | pin hd l v ha => rfl
  | delay hd ms ha => rfl
  | send hd n ha e he hlt => rfl
  | sendLast hd n ha e he hlt => rfl
  | sentAll hd n ha hlt => rfl
  | busy hd ha hs hl => rw [State.drawLevel_frame s]; rfl
  | ready hd ha hs hl => rw [State.drawLevel_frame s]; rfl
  | repoll hd ha hs => rfl
  | finished hd ha => rfl

/-! ### The command port -/

/-- What the open command port can do (R30, R88, R89). -/
theorem acceptWord_cases (s : State) :
    (s.words = [] ∧ acceptWord s = .done s) ∨
      ∃ w rest, s.words = w :: rest ∧
        ((commandComplete (s.parse ++ [w]) = false ∧
            acceptWord s = .done { s with words := rest, parse := s.parse ++ [w] }) ∨
          (commandComplete (s.parse ++ [w]) = true ∧
            acceptWord s = dispatchWords (s.parse ++ [w]) { s with words := rest, parse := [] })) := by
  unfold acceptWord
  split
  · rename_i h
    exact Or.inl ⟨h, rfl⟩
  · rename_i w rest h
    refine Or.inr ⟨w, rest, h, ?_⟩
    split
    · rename_i hc
      exact Or.inr ⟨hc, rfl⟩
    · rename_i hc
      exact Or.inl ⟨by simpa using hc, rfl⟩

/-- The verdict on a whole command: it executes, or it is illegal (R89). -/
theorem dispatchWords_cases {ws : List Word} (h : commandComplete ws = true) (s : State) :
    (∃ i rest, decode ws = .ok (i, rest) ∧ dispatchWords ws s = .command i s) ∨
      ∃ opc, decode ws = .error (.reservedBits opc) ∧ dispatchWords ws s = .done (s.rejectCommand opc) := by
  obtain ⟨w0, rest, n, -, -, -, hd⟩ := decode_of_complete h
  cases hh : headerMatches w0 with
  | true =>
    simp only [hh, if_true] at hd
    exact Or.inl ⟨_, _, hd, by simp [dispatchWords, hd]⟩
  | false =>
    simp only [hh, Bool.false_eq_true, if_false] at hd
    exact Or.inr ⟨_, hd, by simp [dispatchWords, hd]⟩

/-! ### The step -/

/-- What a step can do (R30, R31, R63, R290). -/
inductive StepCase (s : State) : Result → Prop where
  /-- Power-on reset is asserted. -/
  | powerOn (hr : s.resetAsserted = true) : StepCase s (.next s.tickReset.powerOn)
  /-- The sequencer moves. -/
  | sequencer (hr : s.resetAsserted = false) (spc : Nat) (hq : s.seq = .run spc) :
      StepCase s (.next (s.tickReset.sequencerStep spc))
  /-- A response waits. -/
  | host (hr : s.resetAsserted = false) (hq : s.seq = .idle) (w : Word) (hw : s.resp = some w) :
      StepCase s (.next (s.tickReset.awaitHost w))
  /-- No word is offered. -/
  | waiting (hr : s.resetAsserted = false) (hq : s.seq = .idle) (hw : s.resp = none) (ho : s.words = []) :
      StepCase s (.next s.tickReset)
  /-- A word is accepted and the command is not whole. -/
  | partialCommand (hr : s.resetAsserted = false) (hq : s.seq = .idle) (hw : s.resp = none) (w : Word)
      (rest : List Word) (ho : s.words = w :: rest) (hc : commandComplete (s.parse ++ [w]) = false) :
      StepCase s (.next { s.tickReset with words := rest, parse := s.parse ++ [w] })
  /-- A word is accepted and the command is illegal. -/
  | illegal (hr : s.resetAsserted = false) (hq : s.seq = .idle) (hw : s.resp = none) (w : Word)
      (rest : List Word) (ho : s.words = w :: rest) (hc : commandComplete (s.parse ++ [w]) = true) (opc : Opcode)
      (hd : decode (s.parse ++ [w]) = .error (.reservedBits opc)) :
      StepCase s (.next (State.rejectCommand opc { s.tickReset with words := rest, parse := [] }))
  /-- A word is accepted and the command executes. -/
  | command (hr : s.resetAsserted = false) (hq : s.seq = .idle) (hw : s.resp = none) (w : Word)
      (rest : List Word) (ho : s.words = w :: rest) (hc : commandComplete (s.parse ++ [w]) = true) (i : Instr)
      (tail : List Word) (hd : decode (s.parse ++ [w]) = .ok (i, tail)) :
      StepCase s (exec i { s.tickReset with words := rest, parse := [] })

/-- A step is one of those cases. -/
theorem step_cases (s : State) : StepCase s (step s) := by
  unfold step State.move
  cases hr : s.resetAsserted with
  | true => exact .powerOn hr
  | false =>
    simp only [Bool.false_eq_true, if_false, State.agentMove]
    cases hq : s.seq with
    | run spc =>
      simp only [State.tickReset_seq, hq]
      exact .sequencer hr spc hq
    | idle =>
      simp only [State.tickReset_seq, hq]
      cases hw : s.resp with
      | some w =>
        simp only [State.tickReset_resp, hw]
        exact .host hr hq w hw
      | none =>
        simp only [State.tickReset_resp, hw]
        rcases acceptWord_cases s.tickReset with ⟨ho, h⟩ | ⟨w, rest, ho, ⟨hc, h⟩ | ⟨hc, h⟩⟩
        · rw [h]
          exact .waiting hr hq hw ho
        · rw [h]
          exact .partialCommand hr hq hw w rest ho hc
        · rw [h]
          rcases dispatchWords_cases hc { s.tickReset with words := rest, parse := [] } with
            ⟨i, tail, hd, h'⟩ | ⟨opc, hd, h'⟩
          · rw [show s.tickReset.parse = s.parse from rfl] at h' hd
            simp only [State.tickReset_parse, h']
            exact .command hr hq hw w rest ho hc i tail hd
          · rw [show s.tickReset.parse = s.parse from rfl] at h' hd
            simp only [State.tickReset_parse, h']
            exact .illegal hr hq hw w rest ho hc opc hd

/-! ### The commands -/

/-- Every command answers a next state: FBSEQ has no behaviour that stops it (R239, log 13). -/
theorem exec_next (i : Instr) (s : State) : ∃ t, exec i s = .next t := by
  cases i <;>
    simp only [exec, execConfigure, execDestroy, execSetPixel, execSetPixels, execDrawBitmap, execSetBorder,
      execGetWidth, execGetHeight, execRender, execGetStatus, execReserved0, execReservedB, execReservedC,
      execReservedD, execReservedE, execReservedF] <;>
    repeat' (first | exact ⟨_, rfl⟩ | split)

end Sys2Proof.Machine
end

