-- ==== Sys2Proof/Laws/PerInstr.lean ====
section
/-! SUPPORT. Statements about every instruction as syntax, one lemma per constructor. -/

namespace Sys2Proof.Laws

/-- R87, R99: the words that encode an instruction are as many as its length rule says. -/
def EncodedLength.Statement (i : Instr) : Prop := commandLength (encode i) = some (encode i).length

/-- A command whose length follows from its opcode alone. -/
theorem EncodedLength.ofHeader (opc : Opcode) (pvc varc modec : BitVec 2) :
    opc ≠ .drawBitmap → opc ≠ .setPixel → opc ≠ .setPixels →
      commandLength [encodeHeader opc pvc varc modec] = some 1 := by
  cases opc <;> simp [commandLength]

theorem EncodedLength.ofReserved (opc : Opcode) (low : BitVec 28) :
    opc ≠ .drawBitmap → opc ≠ .setPixel → opc ≠ .setPixels →
      commandLength [encodeReserved opc low] = some 1 := by
  cases opc <;> simp [commandLength]

theorem EncodedLength.configure (varc modec : BitVec 2) : EncodedLength.Statement (.configure varc modec) :=
  EncodedLength.ofHeader _ _ _ _ (by decide) (by decide) (by decide)

theorem EncodedLength.destroy : EncodedLength.Statement .destroy :=
  EncodedLength.ofHeader _ _ _ _ (by decide) (by decide) (by decide)

theorem EncodedLength.setPixel (pvc : BitVec 2) (x y : BitVec 16) :
    EncodedLength.Statement (.setPixel pvc x y) := by
  simp [EncodedLength.Statement, encode, commandLength]

theorem EncodedLength.setPixels (pvc : BitVec 2) (x y w h : BitVec 16) :
    EncodedLength.Statement (.setPixels pvc x y w h) := by
  simp [EncodedLength.Statement, encode, commandLength]

theorem EncodedLength.drawBitmap (pvc : BitVec 2) (x y w h : BitVec 16) (bitmap : List Byte) :
    EncodedLength.Statement (.drawBitmap pvc x y w h bitmap) := by
  simp [EncodedLength.Statement, encode, commandLength]
  omega

theorem EncodedLength.setBorder (pvc : BitVec 2) : EncodedLength.Statement (.setBorder pvc) :=
  EncodedLength.ofHeader _ _ _ _ (by decide) (by decide) (by decide)

theorem EncodedLength.getWidth : EncodedLength.Statement .getWidth :=
  EncodedLength.ofHeader _ _ _ _ (by decide) (by decide) (by decide)

theorem EncodedLength.getHeight : EncodedLength.Statement .getHeight :=
  EncodedLength.ofHeader _ _ _ _ (by decide) (by decide) (by decide)

theorem EncodedLength.render : EncodedLength.Statement .render :=
  EncodedLength.ofHeader _ _ _ _ (by decide) (by decide) (by decide)

theorem EncodedLength.getStatus : EncodedLength.Statement .getStatus :=
  EncodedLength.ofHeader _ _ _ _ (by decide) (by decide) (by decide)

theorem EncodedLength.reserved0 (low : BitVec 28) : EncodedLength.Statement (.reserved0 low) :=
  EncodedLength.ofReserved _ _ (by decide) (by decide) (by decide)

theorem EncodedLength.reservedB (low : BitVec 28) : EncodedLength.Statement (.reservedB low) :=
  EncodedLength.ofReserved _ _ (by decide) (by decide) (by decide)

theorem EncodedLength.reservedC (low : BitVec 28) : EncodedLength.Statement (.reservedC low) :=
  EncodedLength.ofReserved _ _ (by decide) (by decide) (by decide)

theorem EncodedLength.reservedD (low : BitVec 28) : EncodedLength.Statement (.reservedD low) :=
  EncodedLength.ofReserved _ _ (by decide) (by decide) (by decide)

theorem EncodedLength.reservedE (low : BitVec 28) : EncodedLength.Statement (.reservedE low) :=
  EncodedLength.ofReserved _ _ (by decide) (by decide) (by decide)

theorem EncodedLength.reservedF (low : BitVec 28) : EncodedLength.Statement (.reservedF low) :=
  EncodedLength.ofReserved _ _ (by decide) (by decide) (by decide)

end Sys2Proof.Laws
end

