-- ==== Sys2Proof/Laws/Run.lean ====
section
/-! SUPPORT. Runs of several steps, and the steps of a run in which no reset is asserted. -/

namespace Sys2Proof.Machine

/-- Every step answers a next state (R239, log 13). -/
theorem step_next (s : State) : ∃ t, step s = .next t := by
  have h := step_cases s
  generalize step s = r at h ⊢
  cases h with
  | command hr hq hw w rest ho hc i tail hd => exact exec_next i _
  | powerOn hr => exact ⟨_, rfl⟩
  | sequencer hr spc hq => exact ⟨_, rfl⟩
  | host hr hq w hw => exact ⟨_, rfl⟩
  | waiting hr hq hw ho => exact ⟨_, rfl⟩
  | partialCommand hr hq hw w rest ho hc => exact ⟨_, rfl⟩
  | illegal hr hq hw w rest ho hc opc hd => exact ⟨_, rfl⟩

/-- A run of any machine whose first step answers a next state. -/
theorem Core_run_succ (M : Host.Core) (k : Nat) {a b : M.State} (h : M.step a = .next b) :
    M.run (k + 1) a = M.run k b := by
  rw [Host.Core.run, h]

/-- A run of no step. -/
theorem run_zero (s : State) : Sys2Proof.core.run 0 s = .next s := rfl

/-- A run whose first step is known. -/
theorem run_succ (k : Nat) {s t : State} (h : step s = .next t) :
    Sys2Proof.core.run (k + 1) s = Sys2Proof.core.run k t :=
  Core_run_succ Sys2Proof.core k h

/-- A run of one step is that step. -/
theorem run_one (s : State) : Sys2Proof.core.run 1 s = step s := by
  obtain ⟨t, ht⟩ := step_next s
  exact (run_succ 0 ht).trans ht.symm

/-- A run of some steps that is followed by others. -/
theorem run_add (j k : Nat) {s t : State} (h : Sys2Proof.core.run j s = .next t) :
    Sys2Proof.core.run (j + k) s = Sys2Proof.core.run k t := by
  induction j generalizing s with
  | zero =>
    cases h
    rw [Nat.zero_add]
  | succ j ih =>
    obtain ⟨u, hu⟩ := step_next s
    rw [run_succ j hu] at h
    rw [Nat.add_right_comm, run_succ (j + k) hu]
    exact ih h

/-- A property that a state has and every step keeps holds at the end of every run. -/
theorem run_induction {Q : State → Prop} (hstep : ∀ s t, Q s → step s = .next t → Q t) (k : Nat) {s t : State}
    (hs : Q s) (h : Sys2Proof.core.run k s = .next t) : Q t := by
  induction k generalizing s with
  | zero =>
    cases h
    exact hs
  | succ k ih =>
    obtain ⟨u, hu⟩ := step_next s
    rw [run_succ k hu] at h
    exact ih (hstep s u hs hu) h

/-- While a render runs and no reset is asserted, a step is a step of the sequencer (R30, R56). -/
theorem step_running {s : State} {spc : Nat} (hr : s.resetAsserted = false) (hq : s.seq = .run spc) :
    step s = .next (s.tickReset.sequencerStep spc) := by
  have h := step_cases s
  generalize step s = r at h ⊢
  cases h with
  | sequencer _ spc' h =>
    rw [hq] at h
    cases h
    rfl
  | _ => simp_all

/-- A step inside a transaction, before its last event, emits the next one (R96, log 23). -/
theorem step_send {s : State} {spc : Nat} {n : TxName} {e : Event} (hr : s.resetAsserted = false)
    (hq : s.seq = .run spc) (hd : s.dly = false) (ha : s.renderSeq[spc]? = some (.tx n))
    (he : (s.transaction n)[s.sent]? = some e) (hlt : s.sent + 1 < (s.transaction n).length) :
    step s = .next (((s.emit e).setSent (s.sent + 1)).tickReset) := by
  rw [step_running hr hq]
  have hd' : s.tickReset.dly = false := hd
  have ha' : s.tickReset.renderSeq[spc]? = some (.tx n) := ha
  have he' : (s.tickReset.transaction n)[s.tickReset.sent]? = some e := he
  have hlt' : s.tickReset.sent + 1 < (s.tickReset.transaction n).length := hlt
  simp only [State.sequencerStep, hd', ha', State.perform, Bool.false_eq_true, if_false]
  rcases State.sendNext_cases spc n s.tickReset with ⟨e', h, _, h'⟩ | ⟨_, _, h, _⟩ | ⟨h, _⟩
  · rw [he'] at h
    cases h
    rw [h']
    rfl
  · omega
  · omega

/-- The step that emits the last event of a transaction moves the step pointer on (R22, R96, log 23). -/
theorem step_sendLast {s : State} {spc : Nat} {n : TxName} {e : Event} (hr : s.resetAsserted = false)
    (hq : s.seq = .run spc) (hd : s.dly = false) (ha : s.renderSeq[spc]? = some (.tx n))
    (he : (s.transaction n)[s.sent]? = some e) (hlt : s.sent + 1 = (s.transaction n).length) :
    step s = .next (((s.emit e).completeAction spc).tickReset) := by
  rw [step_running hr hq]
  have hd' : s.tickReset.dly = false := hd
  have ha' : s.tickReset.renderSeq[spc]? = some (.tx n) := ha
  have he' : (s.tickReset.transaction n)[s.tickReset.sent]? = some e := he
  have hlt' : s.tickReset.sent + 1 = (s.tickReset.transaction n).length := hlt
  simp only [State.sequencerStep, hd', ha', State.perform, Bool.false_eq_true, if_false]
  rcases State.sendNext_cases spc n s.tickReset with ⟨_, _, h, _⟩ | ⟨e', h, _, h'⟩ | ⟨h, _⟩
  · omega
  · rw [he'] at h
    cases h
    rw [h']
    rfl
  · omega

/-- No reset is asserted in any of the next `k` steps. -/
def State.noResetFor (k : Nat) (s : State) : Prop := ∀ m, m < k → (s.resetLine.drop m).headD false = false

theorem State.noResetFor_nil {s : State} (h : s.resetLine = []) (k : Nat) : s.noResetFor k := by
  intro m _
  rw [h, List.drop_nil]
  rfl

theorem State.noResetFor_replicate {s : State} {k : Nat} {rest : List Bool}
    (h : s.resetLine = List.replicate k false ++ rest) : s.noResetFor k := by
  intro m hm
  obtain ⟨d, rfl⟩ : ∃ d, k = m + (d + 1) := ⟨k - m - 1, by omega⟩
  rw [h, ← List.replicate_append_replicate, List.append_assoc, List.drop_left' (by simp)]
  rfl

/-- Inside a transaction, `j` steps in which no reset is asserted emit its first `j` events (R96, log 23). -/
theorem run_transaction_prefix (j : Nat) {s : State} {spc : Nat} {n : TxName}
    (hq : s.seq = .run spc) (hd : s.dly = false) (hs : s.sent = 0) (ha : s.renderSeq[spc]? = some (.tx n))
    (hj : j < (s.transaction n).length) (hr : s.noResetFor j) :
    Sys2Proof.core.run j s =
      .next { s.emitAll ((s.transaction n).take j) with sent := j, resetLine := s.resetLine.drop j } := by
  induction j with
  | zero =>
    rw [List.take_zero, List.drop_zero]
    exact (run_zero s).trans (by rw [← hs]; rfl)
  | succ j ih =>
    have hprev := ih (by omega) fun m hm => hr m (by omega)
    obtain ⟨e, he⟩ : ∃ e, (s.transaction n)[j]? = some e := ⟨_, List.getElem?_eq_getElem (by omega)⟩
    rw [List.take_add_one, he, Option.toList_some, State.emitAll_append, ← List.tail_drop]
    rw [State.emitAll_frame] at hprev
    rw [State.emitAll_frame (List.take j _)]
    exact (run_add j 1 hprev).trans
      ((run_one _).trans (step_send (hr j (Nat.lt_succ_self j)) hq hd ha he hj))

/-- A whole transaction with no reset asserted emits its events and moves the step pointer on (R22, R96, log 23). -/
theorem run_transaction {s : State} {spc : Nat} {n : TxName}
    (hq : s.seq = .run spc) (hd : s.dly = false) (hs : s.sent = 0) (ha : s.renderSeq[spc]? = some (.tx n))
    (hr : s.noResetFor (s.transaction n).length) :
    Sys2Proof.core.run (s.transaction n).length s =
      .next { s.emitAll (s.transaction n) with
        seq := .run (spc + 1), sent := 0, resetLine := s.resetLine.drop (s.transaction n).length } := by
  obtain ⟨j, hj⟩ : ∃ j, (s.transaction n).length = j + 1 := by
    refine ⟨(s.transaction n).length - 1, ?_⟩
    simp only [State.transaction, txEvents, List.length_append, List.length_cons, List.length_nil]
    omega
  have hprev := run_transaction_prefix j hq hd hs ha (by omega) fun m hm => hr m (by omega)
  obtain ⟨e, he⟩ : ∃ e, (s.transaction n)[j]? = some e := ⟨_, List.getElem?_eq_getElem (by omega)⟩
  have hsplit : s.transaction n = (s.transaction n).take j ++ [e] := by
    conv_lhs => rw [← List.take_of_length_le (l := s.transaction n) (i := j + 1) (by omega), List.take_add_one, he]
    rfl
  rw [hj]
  conv_rhs => rw [hsplit, State.emitAll_append, ← List.tail_drop]
  rw [State.emitAll_frame] at hprev
  rw [State.emitAll_frame (List.take j _)]
  exact (run_add j 1 hprev).trans
    ((run_one _).trans (step_sendLast (hr j (by omega)) hq hd ha he hj.symm))

end Sys2Proof.Machine
end

