-- ==== Sys2Proof/Tests/Slice0.lean ====
section
/-! SUPPORT. Tests on the vectors of spec/95_test_vectors.md (each theorem names its vector), and for each statement
with hypotheses a concrete case that meets them. -/

namespace Sys2Proof.Tests

open Sys2Proof.Machine

/-! ### Helpers -/

/-- Right after power-on reset, with the illustrative parameters of D7. -/
def fresh : State := State.powerUp Params.illustrative [] [] [] [] []

/-- A Display with given planes. -/
def display (v : Variant) (m : ColorMode) (p a : Memory) : State :=
  { fresh with cfg := true, var := v, mode := m, p := p, a := a }

/-- The V0 Display of the vectors, planes zero. -/
def v0 : State := display .matching .bwr [] []

/-- The V1 Display of the vectors, planes zero. -/
def v1 : State := display .rotated .bw [] []

/-- The V0 Display at the end of program P1. -/
def p1End : State :=
  { display .matching .bwr [(1, 0x80), (2, 0x01), (3, 0x90)] [(1, 0x80), (3, 0x80)] with
    fault := ⟨false, false, true, false, false⟩ }

/-- A V0 Display whose sequencer is at an action. -/
def running (spc : Nat) : State := { v0 with seq := .run spc }

/-- The next state, where there is one. -/
def after : Result → Option State
  | .next s => some s
  | .fault _ => none
  | .refused _ => none

/-- A step with some words received and the next one offered. -/
def offered (parse : List Word) (w : Word) (s : State) : State := { s with parse := parse, words := [w] }

/-- The command's verdict. -/
def decoded (ws : List Word) : Option (Instr × List Word) :=
  match decode ws with
  | .ok r => some r
  | .error _ => none

/-- Why the words are rejected. -/
def rejected (ws : List Word) : Option DecodeError :=
  match decode ws with
  | .ok _ => none
  | .error e => some e

/-! ### WellFormed -/

/-- A bitmap shorter than its width is refused, and so is a longer one (R90). -/
theorem test_wellFormed_refuses :
    (Instr.drawBitmap 0 0 0 2 1 [0x01]).wellFormed = false ∧
      (Instr.drawBitmap 0 0 0 2 1 [0x01, 0x02, 0x03]).wellFormed = false ∧
      (Instr.drawBitmap 0 0 0 2 1 [0x01, 0x02]).wellFormed = true := by decide

/-! ### Decoding: words written out from R80 to R85 (opcode, PV, VAR, MODE, then the operand words) -/

theorem test_decode_configure : decoded [0b0001_00_01_10_0000000000000000000000] = some (.configure 1 2, []) := by
  decide

theorem test_decode_destroy : decoded [0x20000000] = some (.destroy, []) := by decide

theorem test_decode_setPixel :
    decoded [0b0011_10_00_00_0000000000000000000000, 0x00030008] = some (.setPixel 2 8 3, []) := by decide

/-- SR-10. -/
theorem test_decode_setPixels :
    decoded [0x48000000, 0x00010002, 0x00010004] = some (.setPixels 2 2 1 4 1, []) := by decide

/-- DB-1, with a word of the next command after it. -/
theorem test_decode_drawBitmap :
    decoded [0x58000000, 0x00000001, 0x00030002, 0x0000060D, 0x20000000]
      = some (.drawBitmap 2 1 0 2 3 [0x0D, 0x06], [0x20000000]) := by decide

/-- DB-2: five bytes over two payload words, the high bytes of the last one ignored. -/
theorem test_decode_drawBitmap_high_bytes :
    decoded [0x50000000, 0x00000000, 0x00010005, 0x00010001, 0xAABBCC01]
      = some (.drawBitmap 0 0 0 5 1 [0x01, 0x00, 0x01, 0x00, 0x01], []) := by decide

theorem test_decode_setBorder : decoded [0x68000000] = some (.setBorder 2, []) := by decide

theorem test_decode_getWidth : decoded [0x70000000] = some (.getWidth, []) := by decide

theorem test_decode_getHeight : decoded [0x80000000] = some (.getHeight, []) := by decide

theorem test_decode_render : decoded [0x90000000] = some (.render, []) := by decide

theorem test_decode_getStatus : decoded [0xA0000000] = some (.getStatus, []) := by decide

/-- §2.7: the six reserved opcodes take one word each. -/
theorem test_decode_reserved :
    decoded [0x00000000] = some (.reserved0 0, []) ∧ decoded [0xB0000001] = some (.reservedB 1, []) ∧
      decoded [0xC0000000] = some (.reservedC 0, []) ∧ decoded [0xD0000000] = some (.reservedD 0, []) ∧
      decoded [0xE0000000] = some (.reservedE 0, []) ∧
      decoded [0xFFFFFFFF] = some (.reservedF 0xFFFFFFF, []) := by decide

/-- §2.7, SP-8, GW-4, CF-11, CF-21: a reserved bit of a defined opcode. -/
theorem test_decode_rejects_reserved_bits :
    rejected [0x98000000] = some (.reservedBits .render) ∧
      rejected [0x30400000, 0] = some (.reservedBits .setPixel) ∧
      rejected [0x31000000, 0] = some (.reservedBits .setPixel) ∧
      rejected [0x51000000, 0, 0x00010005, 0, 0] = some (.reservedBits .drawBitmap) ∧
      rejected [0x70000001] = some (.reservedBits .getWidth) ∧
      rejected [0x14000000] = some (.reservedBits .configure) ∧
      rejected [0xA0000001] = some (.reservedBits .getStatus) ∧
      rejected [0x20400000] = some (.reservedBits .destroy) := by decide

/-- A command that has not arrived in full. -/
theorem test_decode_truncated :
    rejected [] = some .noWord ∧ rejected [0x30000000] = some .truncated ∧
      rejected [0x50000000, 0, 0x00FF0009, 0, 0] = some .truncated := by decide

/-- §2.4, §2.7: the lengths of DRAW_BITMAP. -/
theorem test_commandLength :
    commandLength [0x50000000, 0, 0x00000000] = some 3 ∧ commandLength [0x50000000, 0, 0x00010004] = some 4 ∧
      commandLength [0x50000000, 0, 0x00010005] = some 5 ∧ commandLength [0x50000000, 0, 0x00FF0009] = some 6 ∧
      commandLength [0x50000000, 0, 0x0000FFFF] = some (3 + 16384) := by decide

/-- The encodings that spec/95 writes out. -/
theorem test_encode :
    encode (.configure 1 2) = [0x11800000] ∧ encode (.setPixel 0 15 0) = [0x30000000, 0x0000000F] ∧
      encode (.setPixels 1 0 0 250 122) = [0x44000000, 0x00000000, 0x007A00FA] ∧
      encode (.drawBitmap 2 1 0 2 3 [0x0D, 0x06]) = [0x58000000, 0x00000001, 0x00030002, 0x0000060D] := by decide

/-- The opcode table's numbering: the second word is bits 63 to 32, and words above the row's bits are zero. -/
theorem test_decodeTableWord :
    decodeTableWord 32 0x40000000 = some (.setPixels 0 0 0 0 0) ∧
      decodeTableWord 64 0x0003000838000000 = some (.setPixel 2 8 3) ∧
      decodeTableWord 32 0x98000000 = none := by decide

/-! ### The translator -/

/-- §2.1, V0. -/
theorem test_translator_v0 :
    ([(0, 0), (7, 0), (8, 0), (15, 0), (16, 0), (0, 1), (3, 1), (0, 3), (7, 3), (8, 3), (0, 4), (16, 4)].map
        fun q => translator .matching ⟨16, 4, 16, 4⟩ q.1 q.2)
      = [some (1, 7), some (1, 0), some (2, 7), some (2, 0), some (3, 7), some (3, 7), some (3, 4), some (7, 7),
          some (7, 0), none, none, none] := by decide

/-- §2.1, V1, and V1' for a negative column. -/
theorem test_translator_rotated :
    ([(0, 0), (0, 1), (0, 2), (0, 3), (0, 4), (1, 0), (3, 2), (9, 2), (9, 0), (10, 0), (10, 4)].map
        fun q => translator .rotated ⟨10, 4, 16, 10⟩ q.1 q.2)
      = [some (2, 6), some (2, 7), some (1, 0), some (1, 1), some (1, 2), some (4, 6), some (7, 0), some (19, 0),
          none, none, none] ∧
    ([(0, 0), (0, 3), (2, 1), (0, 4), (0, 8), (3, 0)].map fun q => translator .rotated ⟨4, 8, 8, 4⟩ q.1 q.2)
      = [some (1, 4), some (1, 7), some (3, 5), none, none, none] := by decide

/-! ### The commands -/

/-- CF-7: the status word after CONFIGURE V1, BW. -/
theorem test_configure : (after (exec (.configure 1 2) fresh)).map State.statusWord = some 0x00000013#32 := by decide

/-- CF-12: a rejected CONFIGURE keeps the Display. -/
theorem test_configure_rejected :
    (after (exec (.configure 2 0) v0)).map State.statusWord = some 0x00000801#32 := by decide

/-- CF-19: DESTROY clears CFG, and the fields read 0. -/
theorem test_destroy :
    (after (exec .destroy (display .matching .bwy [] []))).map State.statusWord = some 0x00000000#32 := by decide

/-- CF-18. -/
theorem test_destroy_unconfigured :
    (after (exec .destroy fresh)).map State.statusWord = some 0x00001000#32 := by decide

/-- SP-11: (16, 0) ACCENT, then (0, 1) WHITE at the same bit. -/
theorem test_setPixel_aliases :
    (after (exec (.setPixel 0 0 1) (display .matching .bwr [(3, 0x80)] [(3, 0x80)]))).map
      (fun t => (t.p, t.a)) = some ([(3, 0x80)], []) := by decide

/-- SP-5: index L is flagged. -/
theorem test_setPixel_addr :
    (after (exec (.setPixel 0 8 3) v0)).map (fun t => (t.p, t.fault.addr)) = some ([], true) := by decide

/-- SR-2: x = 16 is accepted and aliases (0, 1). -/
theorem test_setPixels :
    (after (exec (.setPixels 0 0 0 17 1) v0)).map (fun t => (t.p.firstBytes 8, t.a, t.fault.addr))
      = some ([0x00, 0xFF, 0xFF, 0x80, 0x00, 0x00, 0x00, 0x00], [], false) := by decide

/-- P2, line 2: a column of the rotated variant, y = H with it. -/
theorem test_setPixels_rotated :
    (after (exec (.setPixels 0 0 0 1 5) v1)).map (fun t => (t.p, t.fault)) = some ([(1, 0x07), (2, 0xC0)], FaultBits.none) := by
  decide

/-- DB-1. -/
theorem test_drawBitmap :
    (after (exec (.drawBitmap 2 1 0 2 3 [0x0D, 0x06]) v1)).map (fun t => (t.p, t.a))
      = some ([(3, 0x01), (4, 0x40), (5, 0x01), (6, 0x80)], [(3, 0x01), (4, 0x40), (5, 0x01), (6, 0x80)]) := by decide

/-- DB-8: one pixel drawn, three out of the planes. -/
theorem test_drawBitmap_addr :
    (after (exec (.drawBitmap 0 7 3 2 2 [0x03, 0x03]) v0)).map (fun t => (t.p, t.fault.addr))
      = some ([(7, 0x01)], true) := by decide

/-- CF-14. -/
theorem test_setBorder : (after (exec (.setBorder 2) v1)).map State.statusWord = some 0x00000053#32 := by decide

/-- CF-16. -/
theorem test_setBorder_reserved : (after (exec (.setBorder 3) v0)).map State.statusWord = some 0x00000201#32 := by
  decide

/-- GW-2: the visible width, not the RAM columns. -/
theorem test_getWidth : (after (exec .getWidth v1)).map State.resp = some (some 0x0000000A#32) := by decide

/-- GW-3. -/
theorem test_getWidth_unconfigured :
    (after (exec .getWidth fresh)).map (fun t => (t.resp, t.fault.notConfigured)) = some (some 0x00000000#32, true) := by
  decide

/-- GH-3. -/
theorem test_getHeight : (after (exec .getHeight v1)).map State.resp = some (some 0x00000004#32) := by decide

/-- GH-4: HEIGHT_PARITY. -/
theorem test_getHeight_parity :
    (after (exec .getHeight { v1 with params := { Params.illustrative with heightParity := true } })).map State.resp
      = some (some 0x0000000A#32) := by decide

/-- P1, line 8. -/
theorem test_getStatus : (after (exec .getStatus p1End)).map State.resp = some (some 0x00000401#32) := by decide

/-- P3, line 4. -/
theorem test_getStatus_unconfigured :
    (after (exec .getStatus { fresh with fault := ⟨true, false, false, true, true⟩ })).map State.resp
      = some (some 0x00001900#32) := by decide

/-- RS-5: no event, and the port stays open. -/
theorem test_render_unconfigured :
    (after (exec .render fresh)).map (fun t => (t.seq, t.trace, t.fault.notConfigured)) = some (.idle, [], true) := by
  decide

/-- RS-1, transactions 16 and 19: seven bytes each, byte L - 1 not among them. -/
theorem test_render_planes :
    p1End.txPayload .writeRam = [0x00, 0x80, 0x01, 0x90, 0x00, 0x00, 0x00] ∧
      p1End.txPayload .writeRamAlt = [0x00, 0x80, 0x00, 0x80, 0x00, 0x00, 0x00] := by decide

/-- L1-9: the driver output and the windows for R = 300, C = 400, and the selectors of RS-3. -/
theorem test_render_payloads :
    let s := { v0 with params := { Params.illustrative with matchingGeometry := ⟨400, 300, 400, 300⟩ } };
    s.txPayload .driverOutput = [0x2B, 0x01, 0x00] ∧ s.txPayload .ramXWindow = [0x00, 0x31] ∧
      s.txPayload .ramYWindow = [0x00, 0x00, 0x2B, 0x01] := by decide

/-- RS-1, the first action. -/
theorem test_step_first_action :
    (after (step (running 0))).map (fun t => (t.seq, t.rst, t.trace)) = some (.run 1, .low, [.pin .rst .low]) := by
  decide

/-- §2.10, `Tx(0x12, [])`: one event a step, and the step pointer moves with the last one. -/
theorem test_step_transaction :
    (after (step { running 4 with sent := 2 })).map (fun t => (t.seq, t.sent, t.trace))
        = some (.run 4, 3, [.bytes [0x12]]) ∧
      (after (step { running 4 with sent := 3 })).map (fun t => (t.seq, t.sent, t.cs, t.trace))
        = some (.run 5, 0, .high, [.pin .cs .high]) := by decide

/-- R302: a reset between two events of a transaction. -/
theorem test_step_reset_cuts :
    (after (step { running 4 with sent := 2, cs := .low, resetLine := [true], trace := [.pin .cs .low, .pin .dc .low] })).map
      (fun t => (t.seq, t.sent, t.cs, t.trace)) = some (.idle, 0, .high, [.pin .cs .low, .pin .dc .low]) := by decide

/-- §2.9, BUSY_ACTIVE = 1: after a sample 1 the next step requests 10 ms. -/
theorem test_step_sync :
    (after (step { running 6 with levels := [.high] })).map (fun t => (t.sent, t.dly, t.trace))
        = some (1, false, [.busySample .high]) ∧
      (after (step { running 6 with sent := 1 })).map (fun t => (t.sent, t.dly, t.seq, t.trace))
        = some (0, true, .run 6, [.delayReq 10]) := by decide

/-- SP-8: a reserved bit in SET_PIXEL, found after its second word. -/
theorem test_step_illegal :
    (after (step (offered [0x31000000] 0x00000000 v0))).map (fun t => (t.parse, t.p, t.fault))
      = some ([], [], ⟨true, false, false, false, false⟩) := by decide

/-- GW-4: an illegal GET_WIDTH responds with zero. -/
theorem test_step_illegal_responds :
    (after (step (offered [] 0x70000001 v0))).map (fun t => (t.resp, t.fault.illegalCmd))
      = some (some 0x00000000#32, true) := by decide

/-- §2.7: each reserved opcode flags F_ILLEGAL_CMD and responds nothing. -/
theorem test_step_reserved :
    ([0x00000000, 0xB0000000, 0xC0000000, 0xD0000000, 0xE0000000, 0xF0000000].map fun w =>
        (after (step (offered [] w fresh))).map fun t => (t.resp, t.fault))
      = List.replicate 6 (some (none, ⟨true, false, false, false, false⟩)) := by decide

/-- A command placed by `withFetchWord` runs at the next step after reset. -/
theorem test_withFetchWord :
    (after (step (State.reset.withFetchWord 32 0x11800000))).map (fun t => (t.cfg, t.mode)) = some (true, .bw) ∧
      (after (step (State.reset.withFetchWord 64 0x0003000838000000))).map (fun t => (t.parse, t.fault.notConfigured))
        = some ([], true) := by decide

/-! ### Witnesses: for each statement with hypotheses, a case that meets them, clause by clause -/

theorem witness_DecodeEncodeRoundTrip : (Instr.drawBitmap 0 0 0 5 1 [0x01, 0x00, 0x01, 0x00, 0x01]).wellFormed = true := by
  decide

theorem witness_DecodedWordsAreTheEncoding :
    decode [0x50000000, 0, 0x00010005, 0x00010001, 0xAABBCC01, 0x20000000]
      = .ok (.drawBitmap 0 0 0 5 1 [0x01, 0x00, 0x01, 0x00, 0x01], [0x20000000]) := rfl

theorem witness_CommandLengthRule :
    ([] : List Word).length ≤ 1 ∧ [0x00000000#32].length ≤ 1 ∧
      commandLength [0x50000000, 0, 0x0000FFFF] = some (3 + 16384) ∧ commandLength [0x20000000] = some 1 := by decide

/-- W = 0 with no payload, and W = 5 with two payloads that differ in the unused bytes alone. -/
theorem witness_BitmapPayloadPacking :
    (0x5C000000#32 &&& 0xF3FFFFFF#32 = 0x50000000#32 ∧ ([] : List Word).length = ((0x00010000#32).toNat % 65536 + 3) / 4) ∧
    ([0x00010001#32, 0xAABBCC01#32].length = ((0x00010005#32).toNat % 65536 + 3) / 4 ∧
      ∀ j, j < 5 → ∀ k, k < 8 →
        ([0x00010001#32, 0x00000001#32][j / 4]?).map (fun q => q.getLsbD (8 * (j % 4) + k)) =
          ([0x00010001#32, 0xAABBCC01#32][j / 4]?).map (fun q => q.getLsbD (8 * (j % 4) + k))) := by decide

theorem witness_TranslatorFormula :
    (⟨16, 4, 16, 4⟩ : Geometry).valid = true ∧ (⟨10, 4, 16, 10⟩ : Geometry).valid = true ∧
      (⟨8, 1, 8, 1⟩ : Geometry).valid = true := by decide

theorem witness_TranslatorStaysInside :
    translator .matching ⟨16, 4, 16, 4⟩ 7 3 = some (7, 0) ∧ translator .matching ⟨16, 4, 16, 4⟩ 0 0 = some (1, 7) := by
  decide

/-- The row end that lands (y = 0) and, at y = H, one that does not. -/
theorem witness_RowEndAliasesNextRow :
    let g : Geometry := ⟨16, 4, 16, 4⟩
    g.valid = true ∧ g.width = g.cols ∧ 0 ≤ g.height ∧ 4 ≤ g.height ∧
      g.cols / 8 + 1 + 0 * (g.cols / 8) < g.cols / 8 * g.rows := by decide

/-- Each clause at its boundary: (17, 0) and (0, 5) are ignored, (16, 0) lands and (0, 4) misses. -/
theorem witness_BoundsCheckIsGreaterThan :
    v0.cfg = true ∧ ¬(17 ≤ v0.geometry.width ∧ 0 ≤ v0.geometry.height) ∧
      ¬(0 ≤ v0.geometry.width ∧ 5 ≤ v0.geometry.height) ∧
      (16 ≤ v0.geometry.width ∧ 0 ≤ v0.geometry.height ∧ translator v0.var v0.geometry 16 0 = some (3, 7)) ∧
      (0 ≤ v0.geometry.width ∧ 4 ≤ v0.geometry.height ∧ translator v0.var v0.geometry 0 4 = none) := by decide

theorem witness_SetPixelWritesOnePair :
    v0.cfg = true ∧ 2#2 ≠ 3#2 ∧ v0.p.wf = true ∧ v0.a.wf = true ∧ v0.lands 16 0 3 7 ∧ ¬v0.lands 16 0 3 6 ∧
      v0.misses 0 4 ∧ ¬v0.misses 17 0 := by
  unfold State.lands State.misses
  decide

/-- Each clause: a pixel that lands, a bit that none lands on, a pixel that misses, and (h = 0) none. -/
theorem witness_SetPixelsFillsRectangle :
    (v0.cfg = true ∧ 2#2 ≠ 3#2 ∧ v0.p.wf = true ∧ v0.a.wf = true) ∧
    (∃ m n, m < (17#16).toNat ∧ n < (1#16).toNat ∧ v0.lands ((0#16).toNat + m) ((0#16).toNat + n) 3 7) ∧
    (¬∃ m n, m < (16#16).toNat ∧ n < (0#16).toNat ∧ v0.lands ((0#16).toNat + m) ((0#16).toNat + n) 3 7) ∧
    (∃ m n, m < (1#16).toNat ∧ n < (5#16).toNat ∧ v0.misses ((0#16).toNat + m) ((0#16).toNat + n)) ∧
    (¬∃ m n, m < (0#16).toNat ∧ n < (4#16).toNat ∧ v0.misses ((0#16).toNat + m) ((0#16).toNat + n)) := by
  unfold State.lands State.misses
  exact ⟨by decide, ⟨16, 0, by decide⟩, fun ⟨_, n, _, h, _⟩ => absurd h (Nat.not_lt_zero n), ⟨0, 4, by decide⟩,
    fun ⟨m, _, h, _⟩ => absurd h (Nat.not_lt_zero m)⟩

/-- Each clause, at h = 8 and at w = 0. -/
theorem witness_DrawBitmapDrawsSetBits :
    ((Instr.drawBitmap 0 7 3 2 8 [0x03, 0x03]).wellFormed = true ∧ (Instr.drawBitmap 0 0 0 0 8 []).wellFormed = true ∧
      v0.cfg = true ∧ 0#2 ≠ 3#2 ∧ (8#16).toNat ≤ 8 ∧ v0.p.wf = true ∧ v0.a.wf = true) ∧
    (∃ col b r, [0x03#8, 0x03#8][col]? = some b ∧ r < (8#16).toNat ∧ b.getLsbD r = true ∧
      v0.lands ((7#16).toNat + col) ((3#16).toNat + r) 7 0) ∧
    (∃ col b r, [0x03#8, 0x03#8][col]? = some b ∧ r < (8#16).toNat ∧ b.getLsbD r = true ∧
      v0.misses ((7#16).toNat + col) ((3#16).toNat + r)) ∧
    (¬∃ col b r, ([] : List Byte)[col]? = some b ∧ r < (8#16).toNat ∧ b.getLsbD r = true ∧
      v0.lands ((0#16).toNat + col) ((0#16).toNat + r) 1 7) ∧
    (¬∃ col b r, ([] : List Byte)[col]? = some b ∧ r < (8#16).toNat ∧ b.getLsbD r = true ∧
      v0.misses ((0#16).toNat + col) ((0#16).toNat + r)) := by
  unfold State.lands State.misses
  exact ⟨by decide, ⟨0, 0x03, 0, by decide⟩, ⟨1, 0x03, 0, by decide⟩, by simp, by simp⟩

theorem witness_LastPixelWriteWins :
    v0.p.wf = true ∧ v0.a.wf = true ∧ 2#2 ≠ 3#2 ∧ 0#2 ≠ 3#2 ∧ ∃ t, exec (.setPixel 2 16 0) v0 = .next t :=
  ⟨by decide, by decide, by decide, by decide, _, rfl⟩

theorem witness_WriteOrderIsInvisible : v0.p.wf = true ∧ v0.a.wf = true ∧ [(0, 0), (1, 0)].Perm [(1, 0), (0, 0)] := by
  decide

theorem witness_OneBitBitmapIsSetPixel : 7 < (8#16).toNat ∧ (8#16).toNat ≤ 8 ∧ (65528#16).toNat + 7 < 65536 := by decide

/-- For DestroyReleasesDisplay, GetWidthResponds, GetHeightResponds and RenderStartsSequencer. -/
theorem witness_CommandsWithADisplay : v0.cfg = true ∧ v1.cfg = true := by decide

/-- R265: each unknown code. -/
theorem witness_ConfigureRejectsUnknownCodes :
    ((2#2 = 2 ∨ 2#2 = 3 ∨ 0#2 = 3) ∧ (3#2 = 2 ∨ 3#2 = 3 ∨ 2#2 = 3) ∧ (0#2 = 2 ∨ 0#2 = 3 ∨ 3#2 = 3)) := by decide

theorem witness_ConfigureCreatesDisplay :
    (1#2 = 0 ∧ Variant.rotated = .matching ∨ 1#2 = 1 ∧ Variant.rotated = .rotated) ∧
      (2#2 = 0 ∧ ColorMode.bw = .bwr ∨ 2#2 = 1 ∧ ColorMode.bw = .bwy ∨ 2#2 = 2 ∧ ColorMode.bw = .bw) := by decide

theorem witness_SetBorderWritesBorder :
    v0.cfg = true ∧ (2#2 = 0 ∧ PixelValue.accent = .white ∨ 2#2 = 1 ∧ PixelValue.accent = .black ∨
      2#2 = 2 ∧ PixelValue.accent = .accent) := by decide

theorem witness_NoDisplayMeansNotConfigured : fresh.cfg = false := by decide

/-- R264: H = 9 is the least height that is refused. -/
theorem witness_BadOperandsAreRefused : v0.cfg = true ∧ 8 < (9#16).toNat ∧ ¬8 < (8#16).toNat := by decide

/-- A reserved opcode, and a reserved bit in the first word of SET_PIXEL and in GET_WIDTH. -/
theorem witness_IllegalCommandsAreConsumed :
    (let s := offered [] 0xF0000000 v0;
      s.resetAsserted = false ∧ s.seq = .idle ∧ s.resp = none ∧ s.words = [0xF0000000] ∧
        (s.parse ++ [0xF0000000]).head? = some 0xF0000000#32 ∧ commandComplete (s.parse ++ [0xF0000000]) = true ∧
        (0xF0000000#32 >>> 28).toNat ∈ [0x0, 0xB, 0xC, 0xD, 0xE, 0xF]) ∧
    (let s := offered [0x31000000] 0x00000000 v0;
      s.resetAsserted = false ∧ s.seq = .idle ∧ s.resp = none ∧ s.words = [0x00000000] ∧
        (s.parse ++ [0x00000000]).head? = some 0x31000000#32 ∧ commandComplete (s.parse ++ [0x00000000]) = true ∧
        0x31000000#32 &&& (Opcode.ofWord 0x31000000).maskBits ≠ (Opcode.ofWord 0x31000000).matchBits) ∧
    (let s := offered [] 0x70000001 v0;
      s.words = [0x70000001] ∧ commandComplete (s.parse ++ [0x70000001]) = true ∧
        0x70000001#32 &&& (Opcode.ofWord 0x70000001).maskBits ≠ (Opcode.ofWord 0x70000001).matchBits) := by decide

theorem witness_OnlyGetCommandsRespond :
    (∃ t, exec .getWidth v0 = .next t) ∧ ∃ t, exec (.setPixel 0 0 0) v0 = .next t := ⟨⟨_, rfl⟩, _, rfl⟩

theorem witness_FaultBitsAreSticky :
    p1End.resetAsserted = false ∧ (∃ t, step p1End = .next t) ∧ p1End.fault.has .addr = true :=
  ⟨by decide, ⟨_, rfl⟩, by decide⟩

theorem witness_OneFaultPerCommand :
    v0.fault = FaultBits.none ∧ ∃ t, exec (.drawBitmap 3 0 0 1 9 [0xFF]) v0 = .next t := ⟨by decide, _, rfl⟩

theorem witness_CommandAccessTable : ∃ t, exec (.setPixels 0 0 0 2 1) v0 = .next t := ⟨_, rfl⟩

theorem witness_StepRunsTheDecodedCommand :
    let s := offered [0x38000000] 0x00000000 v0;
    s.resetAsserted = false ∧ s.seq = .idle ∧ s.resp = none ∧ s.words = [0x00000000] ∧
      decode (s.parse ++ [0x00000000]) = .ok (.setPixel 2 0 0, []) :=
  ⟨by decide, by decide, by decide, by decide, rfl⟩

theorem witness_OfferedCommandRuns :
    let s := { v0 with words := encode (.setPixel 2 0 0) ++ [0x20000000] };
    (Instr.setPixel 2 0 0).wellFormed = true ∧ s.resetLine = [] ∧ s.seq = .idle ∧ s.resp = none ∧ s.parse = [] ∧
      s.words = encode (.setPixel 2 0 0) ++ [0x20000000] ∧ 1 < (encode (.setPixel 2 0 0)).length := by
  decide

theorem witness_OpenPortWaitsOrParses :
    (v0.resetAsserted = false ∧ v0.seq = .idle ∧ v0.resp = none ∧ v0.words = []) ∧
      (offered [] 0x30000000 v0).words = [0x30000000] ∧
      commandComplete ((offered [] 0x30000000 v0).parse ++ [0x30000000]) = false := by decide

/-- Both clauses: the host takes the word, or not yet. -/
theorem witness_WaitingResponseClosesPort :
    (let s := { v0 with resp := some 0x00000010#32, takes := [true] };
      s.resetAsserted = false ∧ s.seq = .idle ∧ s.resp = some 0x00000010 ∧ s.drawTake.1 = true) ∧
    (let s := { v0 with resp := some 0x00000010#32, takes := [false] };
      s.resetAsserted = false ∧ s.seq = .idle ∧ s.resp = some 0x00000010 ∧ s.drawTake.1 = false) := by decide

theorem witness_NoEventsOutsideRender :
    (offered [] 0x90000000 v0).resetAsserted = false ∧ (offered [] 0x90000000 v0).seq = .idle ∧
      ∃ t, step (offered [] 0x90000000 v0) = .next t := ⟨by decide, by decide, _, rfl⟩

theorem witness_RenderStepFrame : (running 4).resetAsserted = false ∧ (running 4).seq = .run 4 := by decide

theorem witness_ExactlyOneLutTransaction :
    v0.params.valid = true ∧ Action.tx .writeLut ∈ v0.renderSeq ∧ Action.tx .masterActivate ∈ v0.renderSeq := by decide

/-- Each mode, and each border with the modes that its clause names. -/
theorem witness_ColorModeSelectors :
    v0.params.valid = true ∧ v0.mode = .bwr ∧ (display .matching .bwy [] []).mode = .bwy ∧ v1.mode = .bw ∧ v0.border = .white ∧
      (v0.setBorder .black).border = .black ∧ (v0.setBorder .accent).border = .accent ∧
      (v0.setBorder .accent).mode = .bwr ∧ ((display .matching .bwy [] []).setBorder .accent).mode = .bwy := by decide

theorem witness_PlaneTransferBytes :
    6 < p1End.geometry.cols / 8 * p1End.geometry.rows - 1 ∧ p1End.cfg = true ∧ p1End.planesWf = true ∧
      1 < p1End.geometry.cols / 8 * p1End.geometry.rows := by decide

theorem witness_WindowPayloadsLittleEndian : v0.params.valid = true ∧ v1.params.valid = true := by decide

/-- A transaction with no data (SW_RESET, action 4) and one with data (ANALOG_BLOCK, action 7). -/
theorem witness_TransactionFraming :
    ((running 4).resetLine = [] ∧ (running 4).dly = false ∧ (running 4).sent = 0 ∧
      (running 4).renderSeq[4]? = some (.tx .swReset) ∧ (running 4).txPayload .swReset = []) ∧
    ((running 7).resetLine = [] ∧ (running 7).dly = false ∧ (running 7).sent = 0 ∧
      (running 7).renderSeq[7]? = some (.tx .analogBlock) ∧ (running 7).txPayload .analogBlock ≠ []) := by decide

/-- A reset before the first event of ANALOG_BLOCK, and one before its last event. -/
theorem witness_ResetCutsTransaction :
    (let s := { running 7 with resetLine := [true] };
      s.seq = .run 7 ∧ s.dly = false ∧ s.sent = 0 ∧ s.renderSeq[7]? = some (.tx .analogBlock) ∧
        0 < (s.transaction .analogBlock).length ∧ s.resetLine = List.replicate 0 false ++ [true]) ∧
    (let s := { running 7 with resetLine := [false, false, false, false, false, true] };
      s.seq = .run 7 ∧ s.dly = false ∧ s.sent = 0 ∧ s.renderSeq[7]? = some (.tx .analogBlock) ∧
        5 < (s.transaction .analogBlock).length ∧ s.resetLine = List.replicate 5 false ++ [true]) := by decide

/-- A timer that answers the first delay at once and the second one two steps late. -/
theorem witness_HardwareResetPulse :
    let s := { running 0 with strobes := [true, false, false, true] };
    s.resetLine = [] ∧ s.seq = .run 0 ∧ s.dly = false ∧ s.strobes = answerStrobes [0, 2] ++ [] ∧ s.sent = 0 := by decide

/-- A Delay (action 5) and a Sync (action 6), with the strobe and without. -/
theorem witness_DelayHoldsSequencer :
    (let s := { running 5 with dly := true, strobes := [true] };
      s.resetAsserted = false ∧ s.seq = .run 5 ∧ s.dly = true ∧ s.drawStrobe.1 = true ∧
        s.renderSeq[5]? = some (.delay 1000)) ∧
    (let s := { running 6 with dly := true, strobes := [true] };
      s.resetAsserted = false ∧ s.seq = .run 6 ∧ s.dly = true ∧ s.drawStrobe.1 = true ∧
        s.renderSeq[6]? = some .sync) ∧
    (let s := { running 6 with dly := true, strobes := [false] };
      s.resetAsserted = false ∧ s.seq = .run 6 ∧ s.dly = true ∧ s.drawStrobe.1 = false) := by decide

/-- An asserted sample, a cleared one, and the request after an asserted one. -/
theorem witness_SyncPollsBusy :
    (let s := { running 6 with levels := [.high] };
      s.resetAsserted = false ∧ s.seq = .run 6 ∧ s.dly = false ∧ s.renderSeq[6]? = some .sync ∧ s.sent = 0 ∧
        s.drawLevel.1 = s.params.busyActive) ∧
    (let s := { running 6 with levels := [.low] };
      s.resetAsserted = false ∧ s.seq = .run 6 ∧ s.dly = false ∧ s.renderSeq[6]? = some .sync ∧ s.sent = 0 ∧
        s.drawLevel.1 ≠ s.params.busyActive) ∧
    (let s := { running 6 with sent := 1 };
      s.resetAsserted = false ∧ s.seq = .run 6 ∧ s.dly = false ∧ s.renderSeq[6]? = some .sync ∧ s.sent = 1) := by decide

theorem witness_StuckBusyHangsRender :
    let s := { running 6 with levels := [.high, .high], strobes := [true] };
    s.resetLine = [] ∧ s.seq = .run 6 ∧ s.renderSeq[6]? = some .sync ∧
      s.levels = List.replicate 2 s.params.busyActive ∧ ∃ t, Sys2Proof.core.run 2 s = .next t :=
  ⟨by decide, by decide, by decide, by decide, _, rfl⟩

/-- RS-2's busy samples: 1, 0, then 0, then 1, 1, 0; the timer answers the third delay one step late. -/
theorem witness_RenderEmitsItsSequence :
    let s := { running 0 with
      levels := [.high, .low, .low, .high, .high, .low], strobes := [true, true, false, true, true, true, true] };
    s.resetLine = [] ∧ s.seq = .run 0 ∧ s.dly = false ∧ s.sent = 0 ∧ Level.low ≠ s.params.busyActive ∧
      s.levels = pollLevels s.params.busyActive .low [1, 0, 2] ∧ [0, 0, 1, 0, 0, 0].length = 3 + 1 + 0 + 2 ∧
      s.strobes = answerStrobes [0, 0, 1, 0, 0, 0] := by
  decide

theorem witness_RenderDependsOnItsInputsAlone :
    (running 4).RenderAgrees { running 4 with fault := p1End.fault, cs := .low, words := [0x20000000] } ∧
      (running 4).seq = .run 4 ∧ (running 4).resetAsserted = false ∧ (∃ t, step (running 4) = .next t) ∧
      ∃ t, step { running 4 with fault := p1End.fault, cs := .low, words := [0x20000000] } = .next t :=
  ⟨by constructor <;> rfl, by decide, by decide, ⟨_, rfl⟩, _, rfl⟩

theorem witness_PowerOnResetTakesEffect : ({ running 9 with resetLine := [true] } : State).resetAsserted = true := by
  decide

theorem witness_ParametersAreFixed : ∃ t, step (running 9) = .next t := ⟨_, rfl⟩

/-- A state with pixels drawn has the invariant, and takes a step. -/
theorem witness_StepKeepsInvariant : p1End.Inv ∧ ∃ t, step p1End = .next t := by
  refine ⟨⟨by decide, by decide, by decide, fun _ i => ?_⟩, _, rfl⟩
  simp only [p1End, display, Memory.read]
  repeat' split
  all_goals first | decide | simp_all

theorem witness_PowerUpMeetsInvariant : Params.illustrative.valid = true := by decide

/-- A run that configures a Display. -/
theorem witness_PlanesOfEveryRun :
    Params.illustrative.valid = true ∧
      ∃ t, Sys2Proof.core.run 1 (State.powerUp Params.illustrative [0x10000000] [] [] [] []) = .next t ∧ t.cfg = true :=
  ⟨by decide, _, rfl, rfl⟩

end Sys2Proof.Tests
end

/-! PROOFS. The command set of R97 and the bytes that name a transaction of a render: which command codes are fixed
(R9), that no parameter code equals one of them (R8), and how often each fixed transaction stands in RENDER_SEQ. -/

namespace Sys2Proof.Machine

/-! ### The fixed command codes (R9) -/

/-- The command code of a transaction whose code is fixed by R9; the other transactions take theirs from the ROM. -/
def TxName.fixedCode : TxName → Option Byte
  | .swReset => some 0x12
  | .writeLut => some 0x32
  | .activationCfg => some 0x20
  | .masterActivate => some 0x20
  | _ => none

theorem TxName.fixedCode_eq_lut_iff (n : TxName) : n.fixedCode = some 0x32#8 ↔ n = .writeLut := by
  cases n <;> simp [fixedCode]

theorem TxName.fixedCode_eq_reset_iff (n : TxName) : n.fixedCode = some 0x12#8 ↔ n = .swReset := by
  cases n <;> simp [fixedCode]

theorem TxName.fixedCode_eq_activate_iff (n : TxName) :
    n.fixedCode = some 0x20#8 ↔ n = .activationCfg ∨ n = .masterActivate := by
  cases n <;> simp [fixedCode]

theorem commandByte_of_fixedCode (r : Rom) {n : TxName} {c : Byte} (h : n.fixedCode = some c) :
    commandByte r n = c := by
  cases n <;> simp [TxName.fixedCode] at h <;> simp [commandByte, ← h]

theorem commandByte_mem_commandCodes (r : Rom) {n : TxName} (h : n.fixedCode = none) :
    commandByte r n ∈ r.commandCodes := by
  cases n <;> simp [TxName.fixedCode] at h <;> simp [commandByte, Rom.commandCodes]

theorem rom_valid_of_params_valid {p : Params} (h : p.valid = true) : p.rom.valid = true := by
  simp only [Params.valid, Bool.and_eq_true] at h
  exact h.2

/-- R8: no parameter code of a valid ROM equals a fixed code. -/
theorem not_mem_commandCodes_of_fixed {r : Rom} (hr : r.valid = true) {c : Byte}
    (hc : c ∈ [0x12#8, 0x32#8, 0x20#8]) : c ∉ r.commandCodes := by
  simp only [Rom.valid, Bool.and_eq_true, decide_eq_true_eq] at hr
  obtain ⟨⟨hnodup, -⟩, -⟩ := hr
  exact List.disjoint_of_nodup_append hnodup hc

/-- In a valid ROM a fixed code names exactly the transactions that R9 gives it to. -/
theorem commandByte_eq_fixed_iff {r : Rom} (hr : r.valid = true) (n : TxName) {c : Byte}
    (hc : c ∈ [0x12#8, 0x32#8, 0x20#8]) : commandByte r n = c ↔ n.fixedCode = some c := by
  refine ⟨fun h => ?_, commandByte_of_fixedCode r⟩
  cases hn : n.fixedCode with
  | none => exact absurd (h ▸ commandByte_mem_commandCodes r hn) (not_mem_commandCodes_of_fixed hr hc)
  | some c' => rw [← h, commandByte_of_fixedCode r hn]

/-! ### Counting in RENDER_SEQ (R172, R186) -/

/-- RENDER_SEQ of (BW, ACCENT) leaves out both optional commands (R175, R177); any other mode and border add the
actions of theirs. -/
theorem count_renderSeq (m : ColorMode) (b : PixelValue) (act : Action) :
    (renderSeq m b).count act =
      (renderSeq .bw .accent).count act + (svActions m).count act + (borderActions b m).count act := by
  have hsv : svActions .bw = [] := rfl
  have hborder : borderActions .accent .bw = [] := rfl
  simp only [renderSeq, renderSteps, List.flatMap_cons, List.flatMap_nil, List.count_append, hsv, hborder,
    List.count_nil]
  omega

theorem count_svActions_of_ne (m : ColorMode) {act : Action} (h : act ≠ .tx .sourceVoltage) :
    (svActions m).count act = 0 := by
  cases m <;> simp [svActions, h.symm]

theorem count_borderActions_of_ne (b : PixelValue) (m : ColorMode) {act : Action} (h : act ≠ .tx .border) :
    (borderActions b m).count act = 0 := by
  cases b <;> cases m <;> simp [borderActions, h.symm]

/-- Neither optional command has a fixed code, so each transaction with one stands once in every RENDER_SEQ. -/
theorem count_renderSeq_of_fixedCode (m : ColorMode) (b : PixelValue) {n : TxName} (h : n.fixedCode.isSome = true) :
    (renderSeq m b).count (.tx n) = 1 := by
  have hsv : Action.tx n ≠ .tx .sourceVoltage := by rintro ⟨⟩; exact nomatch h
  have hborder : Action.tx n ≠ .tx .border := by rintro ⟨⟩; exact nomatch h
  have hbase : (renderSeq .bw .accent).count (.tx n) = 1 := by
    cases n with
    | swReset | writeLut | activationCfg | masterActivate => rfl
    | _ => exact nomatch h
  rw [count_renderSeq, count_svActions_of_ne m hsv, count_borderActions_of_ne b m hborder, hbase]

@[simp] theorem length_lutBytes (r : Rom) (m : ColorMode) : (lutBytes r m).length = 70 := by
  cases m <;> simp [lutBytes]

/-! ### The obligations -/

/-- Settles O43: the fixed codes are told apart from the parameter codes by R8, and each fixed transaction is counted
in RENDER_SEQ. -/
theorem exactlyOneLutTransaction : Obligations.ExactlyOneLutTransaction := by
  intro s act hvalid _
  have hrom := rom_valid_of_params_valid hvalid
  have hcount {n : TxName} (h : n.fixedCode.isSome = true) : s.renderSeq.count (.tx n) = 1 :=
    count_renderSeq_of_fixedCode s.mode s.border h
  refine ⟨fun n _ => ?lut, fun n _ => ?reset, fun n _ => ?activate, hcount rfl, hcount rfl, hcount rfl, hcount rfl,
    length_lutBytes s.params.rom s.mode⟩
  case lut => exact (commandByte_eq_fixed_iff hrom n (by simp)).trans n.fixedCode_eq_lut_iff
  case reset => exact (commandByte_eq_fixed_iff hrom n (by simp)).trans n.fixedCode_eq_reset_iff
  case activate => exact (commandByte_eq_fixed_iff hrom n (by simp)).trans n.fixedCode_eq_activate_iff

/-- Settles O42, row by row of the command set of R97. -/
theorem commandSetBytes : Obligations.CommandSetBytes := by
  intro s
  refine ⟨fun n c d h => ?oneByte, fun n c h => ?code⟩
  case oneByte =>
    simp only [List.mem_cons, Prod.mk.injEq, List.not_mem_nil, or_false] at h
    rcases h with ⟨rfl, rfl, rfl⟩ | ⟨rfl, rfl, rfl⟩ | ⟨rfl, rfl, rfl⟩ | ⟨rfl, rfl, rfl⟩ | ⟨rfl, rfl, rfl⟩ |
      ⟨rfl, rfl, rfl⟩ <;> exact ⟨rfl, rfl⟩
  case code =>
    simp only [List.mem_cons, Prod.mk.injEq, List.not_mem_nil, or_false] at h
    rcases h with ⟨rfl, rfl⟩ | ⟨rfl, rfl⟩ | ⟨rfl, rfl⟩ | ⟨rfl, rfl⟩ | ⟨rfl, rfl⟩ | ⟨rfl, rfl⟩ | ⟨rfl, rfl⟩ |
      ⟨rfl, rfl⟩ | ⟨rfl, rfl⟩ <;> rfl

end Sys2Proof.Machine

/-! PROOFS. What one command can do to the state, said once: the commands by their outcome, and the fields no command
writes (R37). -/

namespace Sys2Proof.Machine

/-! ### What a command can do -/

/-- The commands that write plane bytes pixel by pixel (R56). -/
def WritesPixels (i : Instr) : Prop :=
  (∃ pvc x y, i = .setPixel pvc x y) ∨ (∃ pvc x y w h, i = .setPixels pvc x y w h) ∨
    ∃ pvc x y w h b, i = .drawBitmap pvc x y w h b

/-- The commands with a response word (R238). -/
def Responds (i : Instr) : Prop := i = .getWidth ∨ i = .getHeight ∨ i = .getStatus

/-- What a command can do: the state it can answer. -/
inductive CommandCase (s : State) : Instr → State → Prop where
  /-- CONFIGURE with known codes. -/
  | configured {varc modec : BitVec 2} {v : Variant} {m : ColorMode} (hv : decodeVariant varc = some v)
      (hm : decodeMode modec = some m) : CommandCase s (.configure varc modec) (s.createDisplay v m)
  /-- DESTROY of a Display. -/
  | released (hc : s.cfg = true) : CommandCase s .destroy s.releaseDisplay
  /-- SET_BORDER with a known code. -/
  | bordered {pvc : BitVec 2} {v : PixelValue} (hc : s.cfg = true) (hv : decodePV pvc = some v) :
      CommandCase s (.setBorder pvc) (s.setBorder v)
  /-- A pixel command: WritePixel at each of some pixels. -/
  | painted {i : Instr} (hi : WritesPixels i) (hc : s.cfg = true) (v : PixelValue) (ps : List (Nat × Nat)) :
      CommandCase s i (s.paint v ps)
  /-- RENDER with a Display. -/
  | started (hc : s.cfg = true) : CommandCase s .render (s.setSeq (.run 0))
  /-- A read that responds. -/
  | responded {i : Instr} (hi : Responds i) (w : Word) : CommandCase s i (s.respond w)
  /-- A command that faults. -/
  | raised {i : Instr} (k : FaultKind) : CommandCase s i (s.raise k)
  /-- A read that faults, with its zero response. -/
  | raisedReading {i : Instr} (hi : Responds i) (k : FaultKind) : CommandCase s i ((s.respond 0#32).raise k)

theorem execConfigure_cases {varc modec : BitVec 2} {s t : State} (h : execConfigure varc modec s = .next t) :
    CommandCase s (.configure varc modec) t := by
  unfold execConfigure at h
  split at h
  · cases h; exact .raised .config
  · next hv =>
    split at h
    · cases h; exact .raised .config
    · next hm => cases h; exact .configured hv hm

theorem execDestroy_cases {s t : State} (h : execDestroy s = .next t) : CommandCase s .destroy t := by
  unfold execDestroy at h
  split at h
  · next hc => cases h; exact .released hc
  · cases h; exact .raised .notConfigured

theorem execSetBorder_cases {pvc : BitVec 2} {s t : State} (h : execSetBorder pvc s = .next t) :
    CommandCase s (.setBorder pvc) t := by
  unfold execSetBorder at h
  split at h
  · next hc =>
    split at h
    · next hv => cases h; exact .bordered hc hv
    · cases h; exact .raised .badOperand
  · cases h; exact .raised .notConfigured

theorem execSetPixel_cases {pvc : BitVec 2} {x y : BitVec 16} {s t : State}
    (h : execSetPixel pvc x y s = .next t) : CommandCase s (.setPixel pvc x y) t := by
  unfold execSetPixel at h
  split at h
  · next hc =>
    split at h
    · next v _ => cases h; exact .painted (.inl ⟨_, _, _, rfl⟩) hc v [(x.toNat, y.toNat)]
    · cases h; exact .raised .badOperand
  · cases h; exact .raised .notConfigured

theorem execSetPixels_cases {pvc : BitVec 2} {x y w h : BitVec 16} {s t : State}
    (hx : execSetPixels pvc x y w h s = .next t) : CommandCase s (.setPixels pvc x y w h) t := by
  unfold execSetPixels at hx
  split at hx
  · next hc =>
    split at hx
    · cases hx; exact .painted (.inr (.inl ⟨_, _, _, _, _, rfl⟩)) hc _ _
    · cases hx; exact .raised .badOperand
  · cases hx; exact .raised .notConfigured

theorem execDrawBitmap_cases {pvc : BitVec 2} {x y w h : BitVec 16} {bitmap : List Byte} {s t : State}
    (hx : execDrawBitmap pvc x y w h bitmap s = .next t) : CommandCase s (.drawBitmap pvc x y w h bitmap) t := by
  unfold execDrawBitmap at hx
  split at hx
  · next hc =>
    split at hx
    · split at hx
      · cases hx; exact .raised .badOperand
      · cases hx; exact .painted (.inr (.inr ⟨_, _, _, _, _, _, rfl⟩)) hc _ _
    · cases hx; exact .raised .badOperand
  · cases hx; exact .raised .notConfigured

theorem execGetWidth_cases {s t : State} (h : execGetWidth s = .next t) : CommandCase s .getWidth t := by
  unfold execGetWidth at h
  split at h
  · cases h; exact .responded (.inl rfl) _
  · cases h; exact .raisedReading (.inl rfl) .notConfigured

theorem execGetHeight_cases {s t : State} (h : execGetHeight s = .next t) : CommandCase s .getHeight t := by
  unfold execGetHeight at h
  split at h
  · split at h <;> cases h <;> exact .responded (.inr (.inl rfl)) _
  · cases h; exact .raisedReading (.inr (.inl rfl)) .notConfigured

theorem execRender_cases {s t : State} (h : execRender s = .next t) : CommandCase s .render t := by
  unfold execRender at h
  split at h
  · next hc => cases h; exact .started hc
  · cases h; exact .raised .notConfigured

/-- What a command answers is one of those cases. -/
theorem exec_cases {i : Instr} {s t : State} (h : exec i s = .next t) : CommandCase s i t := by
  cases i with
  | configure varc modec => exact execConfigure_cases h
  | destroy => exact execDestroy_cases h
  | setPixel pvc x y => exact execSetPixel_cases h
  | setPixels pvc x y w h' => exact execSetPixels_cases h
  | drawBitmap pvc x y w h' bitmap => exact execDrawBitmap_cases h
  | setBorder pvc => exact execSetBorder_cases h
  | getWidth => exact execGetWidth_cases h
  | getHeight => exact execGetHeight_cases h
  | render => exact execRender_cases h
  | getStatus => cases h; exact .responded (.inr (.inr rfl)) _
  | reserved0 low | reservedB low | reservedC low | reservedD low | reservedE low | reservedF low =>
    cases h; exact .raised .illegalCmd

/-! ### What no command writes -/

/-- R37: the latches of a Display, its planes, FAULT, RESP and SEQ are all that a command can write, with the count of
free values that DESTROY draws from. -/
theorem exec_frame {i : Instr} {s t : State} (h : exec i s = .next t) :
    t = { s with
      cfg := t.cfg, var := t.var, mode := t.mode, border := t.border, p := t.p, a := t.a, fault := t.fault
      seq := t.seq, resp := t.resp, draws := t.draws } := by
  cases exec_cases h with
  | configured | released | bordered | started | responded | raised | raisedReading => rfl
  | painted hi hc v ps => rw [State.paint_frame v ps s]

/-- A command that sets a fault bit clears none (R261). -/
theorem exec_keeps_fault {i : Instr} {s t : State} (h : exec i s = .next t) {k : FaultKind}
    (hk : s.fault.has k = true) : t.fault.has k = true := by
  cases exec_cases h with
  | configured | released | bordered | started | responded => exact hk
  | raised k' => exact FaultBits.has_set_mono k' k s.fault hk
  | raisedReading _ k' => exact FaultBits.has_set_mono k' k s.fault hk
  | painted hi hc v ps =>
    rw [State.paint_fault]
    split
    · exact FaultBits.has_set_mono .addr k s.fault hk
    · exact hk

/-- Settles O33, from the case of the command and the frame of every command. -/
theorem commandAccessTable : Obligations.CommandAccessTable := by
  intro s t i h
  refine ⟨fun hno => ?latches, fun hno => ?border, fun hno => ?planes, fun hno => ?seq, ?frame⟩
  case latches =>
    cases exec_cases h with
    | configured => exact absurd (.inl ⟨_, _, rfl⟩) hno
    | released => exact absurd (.inr rfl) hno
    | painted hi hc v ps => simp
    | bordered | started | responded | raised | raisedReading => exact ⟨rfl, rfl, rfl, rfl⟩
  case border =>
    cases exec_cases h with
    | configured => exact absurd (.inl ⟨_, _, rfl⟩) hno
    | released => exact absurd (.inr (.inl rfl)) hno
    | bordered => exact absurd (.inr (.inr ⟨_, rfl⟩)) hno
    | painted hi hc v ps => simp
    | started | responded | raised | raisedReading => rfl
  case planes =>
    cases exec_cases h with
    | configured => exact absurd (.inl ⟨_, _, rfl⟩) hno
    | released => exact absurd (.inr (.inl rfl)) hno
    | painted hi => exact absurd (.inr (.inr hi)) hno
    | bordered | started | responded | raised | raisedReading => exact ⟨rfl, rfl⟩
  case seq =>
    cases exec_cases h with
    | started => exact absurd rfl hno
    | painted hi hc v ps => simp
    | configured | released | bordered | responded | raised | raisedReading => rfl
  case frame =>
    rw [exec_frame h]
    simp

/-! ### The status word (R41) -/

theorem getLsbD_bitWord (b : Bool) {n : Nat} (hn : n < 32) (i : Nat) :
    (bitWord b n).getLsbD i = (decide (i = n) && b) := by
  simp only [bitWord, BitVec.getLsbD_shiftLeft, BitVec.getLsbD_setWidth, BitVec.getLsbD_ofBool]
  by_cases h : i = n
  · subst h; simp [hn]
  · simp [h]; omega

theorem getLsbD_codeWord (c : BitVec 2) {n : Nat} (hn : n + 2 ≤ 32) (i : Nat) :
    (codeWord c n).getLsbD i = (decide (n ≤ i) && c.getLsbD (i - n)) := by
  simp only [codeWord, BitVec.getLsbD_shiftLeft, BitVec.getLsbD_setWidth]
  by_cases hi : i < n + 2
  · have h32 : i < 32 := by omega
    have hsub : i - n < 32 := by omega
    by_cases hle : n ≤ i <;> simp [h32, hsub, hle]
  · simp [BitVec.getLsbD_of_ge c (i - n) (by omega)]

theorem FaultBits.getLsbD_word (f : FaultBits) (i : Nat) :
    f.word.getLsbD i =
      (decide (i = 8) && f.illegalCmd || decide (i = 9) && f.badOperand || decide (i = 10) && f.addr ||
        decide (i = 11) && f.config || decide (i = 12) && f.notConfigured) := by
  simp [FaultBits.word, getLsbD_bitWord]

/-- R41, bit by bit: the code fields while a Display exists, and the fault bits. -/
theorem State.getLsbD_statusWord (s : State) (i : Nat) :
    s.statusWord.getLsbD i =
      (s.cfg && (decide (i = 0) || decide (1 ≤ i) && (variantCode s.var).getLsbD (i - 1) ||
        decide (3 ≤ i) && (modeCode s.mode).getLsbD (i - 3) ||
        decide (5 ≤ i) && (pixelCode s.border).getLsbD (i - 5)) ||
        s.fault.word.getLsbD i) := by
  cases hc : s.cfg <;> simp [State.statusWord, hc, getLsbD_bitWord, getLsbD_codeWord]

/-- A field of two bits of the status word that holds a code while a Display exists. -/
theorem State.extract_statusWord {s : State} {n : Nat} {c : BitVec 2}
    (h : ∀ i, i < 2 → s.statusWord.getLsbD (n + i) = (s.cfg && c.getLsbD i)) :
    s.statusWord.extractLsb' n 2 = if s.cfg then c else 0 := by
  apply BitVec.eq_of_getLsbD_eq
  intro i hi
  rw [BitVec.getLsbD_extractLsb', h i hi]
  cases s.cfg <;> simp [hi]

/-- R41: the fields of VAR, MODE and BORDER. Neither another field nor a fault bit reaches into one. -/
theorem State.extract_statusWord_codes (s : State) :
    s.statusWord.extractLsb' 1 2 = (if s.cfg then variantCode s.var else 0) ∧
      s.statusWord.extractLsb' 3 2 = (if s.cfg then modeCode s.mode else 0) ∧
      s.statusWord.extractLsb' 5 2 = if s.cfg then pixelCode s.border else 0 := by
  refine ⟨State.extract_statusWord fun i hi => ?var, State.extract_statusWord fun i hi => ?mode,
    State.extract_statusWord fun i hi => ?border⟩
  all_goals
    rw [State.getLsbD_statusWord, FaultBits.getLsbD_word]
    interval_cases i <;> simp

/-- The fault bits of R41 are alone from bit 7 up. -/
theorem State.getLsbD_statusWord_high (s : State) {i : Nat} (h : 7 ≤ i) :
    s.statusWord.getLsbD i = s.fault.word.getLsbD i := by
  have h0 : i ≠ 0 := by omega
  rw [State.getLsbD_statusWord]
  simp [h0, BitVec.getLsbD_of_ge _ (i - 1) (show 2 ≤ i - 1 by omega),
    BitVec.getLsbD_of_ge _ (i - 3) (show 2 ≤ i - 3 by omega),
    BitVec.getLsbD_of_ge _ (i - 5) (show 2 ≤ i - 5 by omega)]

/-- Settles O23, field by field. -/
theorem getStatusWord : Obligations.GetStatusWord := by
  intro s
  obtain ⟨hvar, hmode, hborder⟩ := s.extract_statusWord_codes
  refine ⟨s.statusWord, rfl, ?cfg, ?var, ?mode, ?border, ?bit7, ?illegalCmd, ?badOperand, ?addr, ?config,
    ?notConfigured, ?above⟩
  case cfg =>
    rw [State.getLsbD_statusWord, FaultBits.getLsbD_word]
    simp
  case var => rw [hvar]; cases s.cfg <;> cases s.var <;> rfl
  case mode => rw [hmode]; cases s.cfg <;> cases s.mode <;> rfl
  case border => rw [hborder]; cases s.cfg <;> cases s.border <;> rfl
  case above =>
    apply BitVec.eq_of_getLsbD_eq
    intro i hi
    rw [BitVec.getLsbD_extractLsb', State.getLsbD_statusWord_high s (by omega), FaultBits.getLsbD_word]
    have h8 : 13 + i ≠ 8 ∧ 13 + i ≠ 9 ∧ 13 + i ≠ 10 ∧ 13 + i ≠ 11 ∧ 13 + i ≠ 12 := by omega
    simp [h8]
  all_goals
    rw [State.getLsbD_statusWord_high s (by omega), FaultBits.getLsbD_word]
    simp

/-- Settles O24. -/
theorem renderStartsSequencer : Obligations.RenderStartsSequencer := fun _ hc => if_pos hc

end Sys2Proof.Machine

/-! PROOFS. Who moves at a step, as one equation per agent (R30, R31, R290), and what follows for the command port, for
power-on reset and for the fields that only one agent writes. -/

namespace Sys2Proof.Machine

/-! ### What the sequencer and the host leave alone -/

@[simp] theorem State.sequencerStep_cfg (spc : Nat) (s : State) : (s.sequencerStep spc).cfg = s.cfg := by
  rw [State.sequencerStep_frame]

@[simp] theorem State.sequencerStep_var (spc : Nat) (s : State) : (s.sequencerStep spc).var = s.var := by
  rw [State.sequencerStep_frame]

@[simp] theorem State.sequencerStep_p (spc : Nat) (s : State) : (s.sequencerStep spc).p = s.p := by
  rw [State.sequencerStep_frame]

@[simp] theorem State.sequencerStep_a (spc : Nat) (s : State) : (s.sequencerStep spc).a = s.a := by
  rw [State.sequencerStep_frame]

@[simp] theorem State.sequencerStep_fault (spc : Nat) (s : State) : (s.sequencerStep spc).fault = s.fault := by
  rw [State.sequencerStep_frame]

@[simp] theorem State.sequencerStep_parse (spc : Nat) (s : State) : (s.sequencerStep spc).parse = s.parse := by
  rw [State.sequencerStep_frame]

@[simp] theorem State.sequencerStep_resp (spc : Nat) (s : State) : (s.sequencerStep spc).resp = s.resp := by
  rw [State.sequencerStep_frame]

@[simp] theorem State.sequencerStep_params (spc : Nat) (s : State) : (s.sequencerStep spc).params = s.params := by
  rw [State.sequencerStep_frame]

/-- The host at the RSP port writes RESP and its own record, and uses up its inputs: nothing else (R31). -/
theorem State.awaitHost_frame (w : Word) (s : State) :
    s.awaitHost w =
      { s with
        resp := (s.awaitHost w).resp, responses := (s.awaitHost w).responses, takes := s.drawTake.2.takes
        draws := s.drawTake.2.draws } := by
  unfold State.awaitHost
  rw [State.drawTake_frame s]
  split <;> rfl

/-! ### One equation per agent -/

/-- R290: an asserted power-on reset is the whole of its step (log 9). -/
theorem step_powerOn {s : State} (hr : s.resetAsserted = true) : step s = .next s.tickReset.powerOn := by
  have h := step_cases s
  generalize step s = r at h ⊢
  cases h with
  | powerOn => rfl
  | _ => simp_all

/-- R31: with RESP full the host moves. -/
theorem step_host {s : State} {w : Word} (hr : s.resetAsserted = false) (hq : s.seq = .idle) (hw : s.resp = some w) :
    step s = .next (s.tickReset.awaitHost w) := by
  have h := step_cases s
  generalize step s = r at h ⊢
  cases h with
  | host _ _ w' hw' => rw [hw] at hw'; cases hw'; rfl
  | _ => simp_all

/-- R291: an open port with no word offered waits. -/
theorem step_waiting {s : State} (hr : s.resetAsserted = false) (hq : s.seq = .idle) (hw : s.resp = none)
    (ho : s.words = []) : step s = .next s.tickReset := by
  have h := step_cases s
  generalize step s = r at h ⊢
  cases h with
  | waiting => rfl
  | _ => simp_all

/-- R30: an open port takes a word that does not complete a command into PARSE. -/
theorem step_partial {s : State} {w : Word} {rest : List Word} (hr : s.resetAsserted = false) (hq : s.seq = .idle)
    (hw : s.resp = none) (ho : s.words = w :: rest) (hc : commandComplete (s.parse ++ [w]) = false) :
    step s = .next { s.tickReset with words := rest, parse := s.parse ++ [w] } := by
  have h := step_cases s
  generalize step s = r at h ⊢
  cases h with
  | partialCommand _ _ _ w' rest' ho' => rw [ho] at ho'; cases ho'; rfl
  | _ => simp_all

/-- What decodes is a whole command (R88, R89). -/
theorem commandComplete_of_decode {ws rest : List Word} {i : Instr} (h : decode ws = .ok (i, rest)) :
    commandComplete ws = true := by
  cases ws with
  | nil => cases h
  | cons w0 ws =>
    simp only [decode] at h
    split at h
    · cases h
    · next n hn =>
      split at h
      · next hle => simpa [commandComplete, hn] using hle
      · cases h

/-- R30, R63: the word that completes a command which decodes runs it. -/
theorem step_command {s : State} {w : Word} {rest tail : List Word} {i : Instr} (hr : s.resetAsserted = false)
    (hq : s.seq = .idle) (hw : s.resp = none) (ho : s.words = w :: rest)
    (hd : decode (s.parse ++ [w]) = .ok (i, tail)) :
    step s = exec i { s.tickReset with words := rest, parse := [] } := by
  have hc := commandComplete_of_decode hd
  have h := step_cases s
  generalize step s = r at h ⊢
  cases h with
  | command _ _ _ w' rest' ho' _ i' tail' hd' =>
    rw [ho] at ho'
    cases ho'
    rw [hd] at hd'
    cases hd'
    rfl
  | _ => simp_all

/-! ### The command port -/

/-- Settles O34. -/
theorem stepRunsTheDecodedCommand : Obligations.StepRunsTheDecodedCommand :=
  fun _ _ _ _ _ hr hq hw ho hd => step_command hr hq hw ho hd

/-- Settles O36. -/
theorem openPortWaitsOrParses : Obligations.OpenPortWaitsOrParses :=
  fun _ hr hq hw => ⟨step_waiting hr hq hw, fun _ _ ho hc => step_partial hr hq hw ho hc⟩

/-- Settles O37, by whether the host takes the word. -/
theorem waitingResponseClosesPort : Obligations.WaitingResponseClosesPort := by
  intro s w hr hq hw
  rw [step_host hr hq hw, State.awaitHost, State.drawTake_tickReset]
  refine ⟨fun hb => ?taken, fun hb => ?waits⟩
  case taken =>
    rw [if_pos hb, State.drawTake_frame s]
    rfl
  case waits =>
    rw [if_neg (by simpa using hb), State.drawTake_frame s]
    simp [State.tickReset, hw]

/-! ### Power-on reset -/

/-- Settles O54. -/
theorem powerOnResetTakesEffect : Obligations.PowerOnResetTakesEffect :=
  fun _ hr => ⟨_, step_powerOn hr, rfl, rfl, rfl, rfl, rfl, rfl, rfl, rfl, rfl, rfl, rfl, rfl, rfl⟩

/-- Settles O56. -/
theorem resetValues : Obligations.ResetValues := ⟨rfl, rfl, rfl, rfl, rfl, rfl, rfl, rfl, rfl⟩

/-! ### What steps leave alone -/

/-- The case of a step, kept apart from the state it answers: in the case of a command that state is what `exec` gives. -/
theorem stepCase_of_next {s t : State} (h : step s = .next t) : ∃ r, r = .next t ∧ StepCase s r :=
  ⟨_, h, step_cases s⟩

/-- Settles O30, agent by agent: a command and an illegal command set bits and clear none. -/
theorem faultBitsAreSticky : Obligations.FaultBitsAreSticky := by
  intro s t k hr hstep hk
  obtain ⟨r, hres, hcase⟩ := stepCase_of_next hstep
  cases hcase with
  | powerOn hr' => exact absurd (hr.symm.trans hr') (by decide)
  | sequencer _ spc => cases hres; simpa using hk
  | host _ _ w => cases hres; rw [State.awaitHost_frame]; exact hk
  | waiting | partialCommand => cases hres; exact hk
  | illegal _ _ _ w rest _ _ opc =>
    cases hres
    rw [State.rejectCommand_eq]
    exact FaultBits.has_set_mono .illegalCmd k s.fault hk
  | command => exact exec_keeps_fault hres hk

/-- Settles O57, agent by agent. -/
theorem parametersAreFixed : Obligations.ParametersAreFixed := by
  intro s t hstep
  obtain ⟨r, hres, hcase⟩ := stepCase_of_next hstep
  cases hcase with
  | powerOn | waiting | partialCommand => cases hres; rfl
  | sequencer _ spc => cases hres; simp
  | host _ _ w => cases hres; rw [State.awaitHost_frame]; rfl
  | illegal _ _ _ w rest _ _ opc => cases hres; rw [State.rejectCommand_eq]; rfl
  | command => rw [exec_frame hres]; rfl

/-- Settles O38: neither the port nor the host nor a command emits or drives a line. -/
theorem noEventsOutsideRender : Obligations.NoEventsOutsideRender := by
  intro s t hr hq hstep
  obtain ⟨r, hres, hcase⟩ := stepCase_of_next hstep
  cases hcase with
  | powerOn hr' => exact absurd (hr.symm.trans hr') (by decide)
  | sequencer _ spc hq' => exact absurd (hq.symm.trans hq') (by simp)
  | waiting | partialCommand => cases hres; exact ⟨rfl, rfl, rfl, rfl, rfl⟩
  | host _ _ w => cases hres; rw [State.awaitHost_frame]; exact ⟨rfl, rfl, rfl, rfl, rfl⟩
  | illegal _ _ _ w rest _ _ opc =>
    cases hres; rw [State.rejectCommand_eq]; exact ⟨rfl, rfl, rfl, rfl, rfl⟩
  | command => rw [exec_frame hres]; exact ⟨rfl, rfl, rfl, rfl, rfl⟩

end Sys2Proof.Machine

/-! PROOFS. The sequencer's delays and transactions: what a pending delay holds, the framed events of a transaction, and
a power-on reset between two of them. -/

namespace Sys2Proof.Machine

/-! ### Delays (R32, R171, R180) -/

/-- With DLY = 1 the sequencer's step is the wait for DLY_DONE. -/
theorem step_awaitDelay {s : State} {spc : Nat} (hr : s.resetAsserted = false) (hq : s.seq = .run spc)
    (hd : s.dly = true) : step s = .next (s.tickReset.awaitDelay spc) :=
  (step_running hr hq).trans (congrArg _ (if_pos hd))

/-- DLY_DONE does not arrive: the timer's input alone is used up. -/
theorem step_held {s : State} {spc : Nat} (hr : s.resetAsserted = false) (hq : s.seq = .run spc) (hd : s.dly = true)
    (hb : s.drawStrobe.1 = false) :
    step s = .next { s with
      resetLine := s.resetLine.tail, strobes := s.drawStrobe.2.strobes, draws := s.drawStrobe.2.draws } := by
  rw [step_awaitDelay hr hq hd, State.awaitDelay, State.drawStrobe_tickReset, if_neg (by simpa using hb),
    State.drawStrobe_frame s]
  rfl

/-- DLY_DONE arrives: DLY is cleared, and the step pointer goes where the delaying action sends it. -/
theorem step_released {s : State} {spc : Nat} (hr : s.resetAsserted = false) (hq : s.seq = .run spc)
    (hd : s.dly = true) (hb : s.drawStrobe.1 = true) :
    step s = .next { s with
      resetLine := s.resetLine.tail, strobes := s.drawStrobe.2.strobes, draws := s.drawStrobe.2.draws
      dly := false, seq := .run (afterDelay spc (s.renderSeq[spc]?)) } := by
  rw [step_awaitDelay hr hq hd, State.awaitDelay, State.drawStrobe_tickReset, if_pos hb, State.drawStrobe_frame s]
  rfl

/-- Settles O49. -/
theorem delayHoldsSequencer : Obligations.DelayHoldsSequencer := by
  intro s spc hr hq hd
  refine ⟨step_held hr hq hd, fun hb ms ha => ?delay, fun hb ha => ?sync⟩
  case delay => rw [step_released hr hq hd hb, ha]; rfl
  case sync => rw [step_released hr hq hd hb, ha, afterDelay, ← hq]

/-! ### Transactions (R96) -/

/-- A transaction with no reset to come emits its framed events, updates the latches and moves the step pointer on. -/
theorem run_framed {s : State} {spc : Nat} {n : TxName} (hr : s.resetLine = []) (hq : s.seq = .run spc)
    (hd : s.dly = false) (hs : s.sent = 0) (ha : s.renderSeq[spc]? = some (.tx n)) :
    Sys2Proof.core.run (s.transaction n).length s = .next { s with
      seq := .run (spc + 1)
      trace := s.trace ++ s.transaction n
      cs := .high
      dc := if (s.txPayload n).isEmpty then .low else .high } := by
  rw [run_transaction hq hd hs ha (State.noResetFor_nil hr _), hr, List.drop_nil, State.transaction,
    State.emitAll_txEvents]
  simp only [← hs, ← hr]

/-- Settles O47, by whether the transaction has data. -/
theorem transactionFraming : Obligations.TransactionFraming := by
  intro s spc n hr hq hd hs ha
  have hrun := run_framed hr hq hd hs ha
  refine ⟨fun hempty => ⟨_, hrun.trans ?_⟩, fun hdata => ⟨_, hrun.trans ?_⟩⟩
  · rw [State.transaction, hempty]
    rfl
  · obtain ⟨b, rest, hcons⟩ := List.exists_cons_of_ne_nil hdata
    rw [State.transaction, hcons]
    rfl

/-! ### A reset inside a transaction (R290, R302) -/

/-- Settles O55: the events before the reset, then the reset's own step. -/
theorem resetCutsTransaction : Obligations.ResetCutsTransaction := by
  intro s spc j n hq hd hs ha hj hline
  refine ⟨?cut, fun m b => rfl⟩
  have hcut := run_transaction_prefix j hq hd hs ha hj (State.noResetFor_replicate hline)
  rw [State.emitAll_frame] at hcut
  have hreset : State.resetAsserted { s.emitAll ((s.transaction n).take j) with
      sent := j, resetLine := s.resetLine.drop j } = true := by
    simp [State.resetAsserted, hline]
  rw [State.emitAll_frame] at hreset
  exact ⟨_, (run_add j 1 hcut).trans ((run_one _).trans (step_powerOn hreset)),
    rfl, rfl, rfl, rfl, rfl, rfl, rfl, rfl⟩

end Sys2Proof.Machine

/-! PROOFS. The words of a command on their way through the command port: the first words of an encoding are never a
whole command, the whole encoding decodes to its command (R87 to R90, R99), and so the port runs it at its last word. -/

namespace Sys2Proof

/-! ### Lengths (R87) -/

theorem commandLength_encode (i : Instr) : commandLength (encode i) = some (encode i).length := by
  cases i with
  | configure varc modec => exact Laws.EncodedLength.configure varc modec
  | destroy => exact Laws.EncodedLength.destroy
  | setPixel pvc x y => exact Laws.EncodedLength.setPixel pvc x y
  | setPixels pvc x y w h => exact Laws.EncodedLength.setPixels pvc x y w h
  | drawBitmap pvc x y w h bitmap => exact Laws.EncodedLength.drawBitmap pvc x y w h bitmap
  | setBorder pvc => exact Laws.EncodedLength.setBorder pvc
  | getWidth => exact Laws.EncodedLength.getWidth
  | getHeight => exact Laws.EncodedLength.getHeight
  | render => exact Laws.EncodedLength.render
  | getStatus => exact Laws.EncodedLength.getStatus
  | reserved0 low => exact Laws.EncodedLength.reserved0 low
  | reservedB low => exact Laws.EncodedLength.reservedB low
  | reservedC low => exact Laws.EncodedLength.reservedC low
  | reservedD low => exact Laws.EncodedLength.reservedD low
  | reservedE low => exact Laws.EncodedLength.reservedE low
  | reservedF low => exact Laws.EncodedLength.reservedF low

/-- A length that is known stays what it is when more words arrive (R87). -/
theorem commandLength_append {ws : List Word} {n : Nat} (h : commandLength ws = some n) (vs : List Word) :
    commandLength (ws ++ vs) = some n := by
  cases ws with
  | nil => cases h
  | cons w0 rest =>
    rw [List.cons_append]
    unfold commandLength at h ⊢
    cases hop : Opcode.ofWord w0 with
    | drawBitmap =>
      simp only [hop] at h ⊢
      cases hw2 : rest[1]? with
      | none => simp [hw2] at h
      | some w2 =>
        obtain ⟨hlt, -⟩ := List.getElem?_eq_some_iff.1 hw2
        rw [List.getElem?_append_left hlt, hw2]
        simpa [hw2] using h
    | _ => simpa only [hop] using h

/-- An encoded command without its last words is no whole command (R88). -/
theorem commandComplete_take_encode {i : Instr} {j : Nat} (hj : j < (encode i).length) :
    commandComplete ((encode i).take j) = false := by
  unfold commandComplete
  split
  · next n hn =>
    have hall := commandLength_append hn ((encode i).drop j)
    rw [List.take_append_drop, commandLength_encode] at hall
    cases hall
    rw [Bool.eq_false_iff, Ne, Nat.ble_eq, List.length_take]
    omega
  · rfl

/-! ### Decoding an encoded command -/

theorem headerMatches_encodeReserved {opc : Opcode} (hmask : opc.maskBits = 0xF#4 ++ 0#28)
    (hmatch : opc.matchBits = opc.code ++ 0#28) (low : BitVec 28) : headerMatches (encodeReserved opc low) = true := by
  rw [headerMatches, Opcode.ofWord_encodeReserved, hmask, hmatch, encodeReserved, BitVec.and_append]
  cases opc <;> simp [Opcode.code]

theorem headerMatches_encodeHeader {opc : Opcode} {pvc varc modec : BitVec 2}
    (h : encodeHeader opc pvc varc modec &&& opc.maskBits = opc.matchBits) :
    headerMatches (encodeHeader opc pvc varc modec) = true := by
  rw [headerMatches, Opcode.ofWord_encodeHeader, h, beq_self_eq_true]

/-- The encoder sets no reserved bit of word 0 (R86, R99). -/
theorem headerMatches_encode (i : Instr) : ∃ w0 tail, encode i = w0 :: tail ∧ headerMatches w0 = true := by
  cases i with
  | configure varc modec =>
    exact ⟨_, _, rfl, headerMatches_encodeHeader (by revert varc modec; decide)⟩
  | setPixel pvc | setPixels pvc | drawBitmap pvc | setBorder pvc =>
    exact ⟨_, _, rfl, headerMatches_encodeHeader (by revert pvc; decide)⟩
  | destroy | getWidth | getHeight | render | getStatus =>
    exact ⟨_, _, rfl, headerMatches_encodeHeader (by decide)⟩
  | reserved0 low | reservedB low | reservedC low | reservedD low | reservedE low | reservedF low =>
    exact ⟨_, _, rfl, headerMatches_encodeReserved rfl (by decide) low⟩

/-- The decoder reads back the bytes of a bitmap, whatever words follow its payload (R90, R99). -/
theorem bitmapBytes_encodePayload (bitmap : List Byte) (rest : List Word) :
    bitmapBytes (encodePayload bitmap bitmap.length ++ rest) bitmap.length = bitmap := by
  refine List.ext_getElem (by simp) fun j hj hj' => ?_
  have hword : j / 4 < (encodePayload bitmap bitmap.length).length := by
    rw [length_encodePayload]; exact payloadWords_bound hj'
  have hget : (encodePayload bitmap bitmap.length ++ rest)[j / 4]? = some (encodePayloadWord bitmap (j / 4)) := by
    rw [List.getElem?_append_left hword, List.getElem?_eq_getElem hword]
    simp [encodePayload]
  simp only [bitmapBytes, List.getElem_map, List.getElem_range, bitmapByte, hget, Option.getD_some]
  rw [extract_encodePayloadWord bitmap (j / 4) (Nat.mod_lt j (by decide)), Nat.div_add_mod, bitmapAt,
    List.getElem?_eq_getElem hj', Option.getD_some]

/-- The fields of an encoded command are its operands (R85). -/
theorem decodeFields_encode {i : Instr} (hi : i.wellFormed = true) {w0 : Word} {tail : List Word}
    (he : encode i = w0 :: tail) (rest : List Word) : decodeFields w0 (tail ++ rest) = i := by
  cases i with
  | drawBitmap pvc x y w h bitmap =>
    cases he
    have hlen : w.toNat = bitmap.length := (beq_iff_eq.1 hi).symm
    simp [decodeFields, hlen, bitmapBytes_encodePayload]
  | _ => cases he; simp [decodeFields]

/-- Decoding the words of a well-formed command gives it back and leaves what follows. -/
theorem decode_encode_append {i : Instr} (hi : i.wellFormed = true) (rest : List Word) :
    decode (encode i ++ rest) = .ok (i, rest) := by
  have hlen := commandLength_append (commandLength_encode i) rest
  have hdrop : (encode i ++ rest).drop (encode i).length = rest := List.drop_left
  have hle : Nat.ble (encode i).length (encode i ++ rest).length = true := by simp
  obtain ⟨w0, tail, he, hmatch⟩ := headerMatches_encode i
  have hfields := decodeFields_encode hi he rest
  generalize (encode i).length = n at hlen hdrop hle
  rw [he, List.cons_append] at hlen hdrop hle ⊢
  rw [decode, hlen]
  simp only [hle, hmatch, hfields, hdrop, if_true]

end Sys2Proof

namespace Sys2Proof.Machine

/-- With no reset to come a step uses up nothing of the reset line. -/
theorem State.tickReset_of_nil {s : State} (h : s.resetLine = []) : s.tickReset = s := by
  rw [State.tickReset, h, List.tail_nil, ← h]

/-- The state of an open port after the first `j` words of an encoded command: they stand in PARSE, and the others
are offered next. -/
def State.midCommand (s : State) (ws rest : List Word) (j : Nat) : State :=
  { s with words := ws.drop j ++ rest, parse := ws.take j }

theorem State.midCommand_words {s : State} {ws rest : List Word} {j : Nat} (hj : j < ws.length) :
    (s.midCommand ws rest j).words = ws[j] :: (ws.drop (j + 1) ++ rest) := by
  rw [State.midCommand, List.drop_eq_getElem_cons hj, List.cons_append]

theorem State.midCommand_parse {s : State} {ws rest : List Word} {j : Nat} (hj : j < ws.length) :
    (s.midCommand ws rest j).parse ++ [ws[j]] = ws.take (j + 1) := by
  simp [State.midCommand]

/-- R30: an open port with empty PARSE takes the first words of a command into PARSE, one a step (log 10). -/
theorem run_midCommand {s : State} {i : Instr} {rest : List Word} (hr : s.resetLine = []) (hq : s.seq = .idle)
    (hw : s.resp = none) (hp : s.parse = []) (ho : s.words = encode i ++ rest) (j : Nat) (hj : j < (encode i).length) :
    Sys2Proof.core.run j s = .next (s.midCommand (encode i) rest j) := by
  induction j with
  | zero =>
    refine (run_zero s).trans ?_
    rw [State.midCommand, List.drop_zero, List.take_zero, ← ho, ← hp]
  | succ j ih =>
    have hj' : j < (encode i).length := Nat.lt_of_succ_lt hj
    have hstep := step_partial (s := s.midCommand (encode i) rest j) (congrArg (·.headD false) hr) hq hw
      (State.midCommand_words hj') (by rw [State.midCommand_parse hj']; exact commandComplete_take_encode hj)
    rw [State.midCommand_parse hj', State.tickReset_of_nil (s := s.midCommand (encode i) rest j) hr] at hstep
    exact (run_add j 1 (ih hj')).trans ((run_one _).trans hstep)

/-- Settles O35: the words before the last are parsed, and with the last one the whole encoding decodes. -/
theorem offeredCommandRuns : Obligations.OfferedCommandRuns := by
  intro s i rest hi hr hq hw hp ho
  have hmid := run_midCommand hr hq hw hp ho
  refine ⟨hmid, ?_⟩
  obtain ⟨m, hm⟩ : ∃ m, (encode i).length = m + 1 :=
    Nat.exists_eq_add_one_of_ne_zero (Nat.ne_of_gt (commandLength_pos (commandLength_encode i)))
  have hlast : m < (encode i).length := by omega
  have hdecode : decode ((s.midCommand (encode i) rest m).parse ++ [(encode i)[m]]) = .ok (i, []) := by
    rw [State.midCommand_parse hlast, ← hm, List.take_length, ← List.append_nil (encode i)]
    exact decode_encode_append hi []
  have hstep := step_command (s := s.midCommand (encode i) rest m) (congrArg (·.headD false) hr) hq hw
    (State.midCommand_words hlast) hdecode
  rw [State.tickReset_of_nil (s := s.midCommand (encode i) rest m) hr, ← hm, List.drop_length, List.nil_append] at hstep
  rw [hm]
  refine (run_add m 1 (hmid m hlast)).trans ((run_one _).trans (hstep.trans ?_))
  rw [State.midCommand, ← hp]

end Sys2Proof.Machine

/-! PROOFS. Two renders that agree on what a render reads make the same moves (R38, R173, R187): each update keeps the
agreement, and each choice of the sequencer reads agreed fields alone. -/

namespace Sys2Proof.Machine

/-! ### Agreement of two states -/

namespace State.RenderAgrees

variable {s s' : State}

theorem emit (h : s.RenderAgrees s') (e : Event) : (s.emit e).RenderAgrees (s'.emit e) := { h with }

theorem setSeq (h : s.RenderAgrees s') (q : Seq) : (s.setSeq q).RenderAgrees (s'.setSeq q) := { h with seq := rfl }

theorem setSent (h : s.RenderAgrees s') (n : Nat) : (s.setSent n).RenderAgrees (s'.setSent n) :=
  { h with sent := rfl }

theorem setDly (h : s.RenderAgrees s') (b : Bool) : (s.setDly b).RenderAgrees (s'.setDly b) := { h with dly := rfl }

theorem completeAction (h : s.RenderAgrees s') (spc : Nat) :
    (s.completeAction spc).RenderAgrees (s'.completeAction spc) := (h.setSent 0).setSeq _

theorem tickReset (h : s.RenderAgrees s') : s.tickReset.RenderAgrees s'.tickReset :=
  { h with resetLine := congrArg List.tail h.resetLine }

theorem resetAsserted (h : s.RenderAgrees s') : s.resetAsserted = s'.resetAsserted :=
  congrArg (·.headD false) h.resetLine

theorem renderSeq (h : s.RenderAgrees s') : s.renderSeq = s'.renderSeq :=
  congrArg₂ Machine.renderSeq h.mode h.border

theorem geometry (h : s.RenderAgrees s') : s.geometry = s'.geometry := congrArg₂ dims h.params h.var

/-- The payloads read agreed fields alone (R97, R173). -/
theorem transaction (h : s.RenderAgrees s') (n : TxName) : s.transaction n = s'.transaction n := by
  have hpayload : s.txPayload n = s'.txPayload n := by
    cases n <;> simp only [State.txPayload, h.geometry, h.params, h.mode, h.border, h.p, h.a]
  rw [State.transaction, State.transaction, hpayload, h.params]

/-- The two panels answer alike, and leave the states in agreement. -/
theorem drawLevel (h : s.RenderAgrees s') :
    s.drawLevel.1 = s'.drawLevel.1 ∧ s.drawLevel.2.RenderAgrees s'.drawLevel.2 := by
  unfold State.drawLevel
  rw [← h.levels, ← h.draws]
  split
  · exact ⟨rfl, { h with levels := rfl, draws := rfl }⟩
  · exact ⟨rfl, { h with levels := rfl, draws := rfl }⟩

/-- The two timers answer alike, and leave the states in agreement. -/
theorem drawStrobe (h : s.RenderAgrees s') :
    s.drawStrobe.1 = s'.drawStrobe.1 ∧ s.drawStrobe.2.RenderAgrees s'.drawStrobe.2 := by
  unfold State.drawStrobe
  rw [← h.strobes, ← h.draws]
  split
  · exact ⟨rfl, { h with strobes := rfl, draws := rfl }⟩
  · exact ⟨rfl, { h with strobes := rfl, draws := rfl }⟩

end State.RenderAgrees

/-! ### Agreement of two moves -/

/-- Two moves, of `s` to `t` and of `s'` to `t'`, end in agreement and emit the same events. -/
def MovesAlike (s s' t t' : State) : Prop :=
  t.RenderAgrees t' ∧ ∃ es, t.trace = s.trace ++ es ∧ t'.trace = s'.trace ++ es

/-- A move without an event. -/
theorem MovesAlike.silent {s s' t t' : State} (h : t.RenderAgrees t') (ht : t.trace = s.trace)
    (ht' : t'.trace = s'.trace) : MovesAlike s s' t t' :=
  ⟨h, [], by simp [ht], by simp [ht']⟩

/-- A move with one event. -/
theorem MovesAlike.event {s s' t t' : State} (e : Event) (h : t.RenderAgrees t') (ht : t.trace = s.trace ++ [e])
    (ht' : t'.trace = s'.trace ++ [e]) : MovesAlike s s' t t' := ⟨h, [e], ht, ht'⟩

section

variable {s s' : State}

theorem sendNext_alike (h : s.RenderAgrees s') (spc : Nat) (n : TxName) :
    MovesAlike s s' (s.sendNext spc n) (s'.sendNext spc n) := by
  unfold State.sendNext
  rw [← h.transaction n, ← h.sent]
  split
  · exact .silent (h.completeAction spc) rfl rfl
  · next e _ => exact .event e ((h.emit e).completeAction spc) rfl rfl
  · next e _ _ _ => exact .event e ((h.emit e).setSent _) rfl rfl

theorem syncPass_alike (h : s.RenderAgrees s') (spc : Nat) : MovesAlike s s' (s.syncPass spc) (s'.syncPass spc) := by
  obtain ⟨hlevel, hdrawn⟩ := h.drawLevel
  have htrace : s.drawLevel.2.trace = s.trace := by rw [State.drawLevel_frame]
  have htrace' : s'.drawLevel.2.trace = s'.trace := by rw [State.drawLevel_frame]
  unfold State.syncPass State.sampleBusy
  rw [← h.sent, ← h.params, ← hlevel]
  split
  · have hsample := hdrawn.emit (.busySample s.drawLevel.1)
    split
    · exact .event _ (hsample.setSent 1) (congrArg (· ++ _) htrace) (congrArg (· ++ _) htrace')
    · exact .event _ (hsample.completeAction spc) (congrArg (· ++ _) htrace) (congrArg (· ++ _) htrace')
  · exact .event _ (((h.emit (.delayReq 10)).setDly true).setSent 0) rfl rfl

theorem perform_alike (h : s.RenderAgrees s') (spc : Nat) (act : Action) :
    MovesAlike s s' (s.perform spc act) (s'.perform spc act) := by
  cases act with
  | pin l v => exact .event (.pin l v) ((h.emit _).completeAction spc) rfl rfl
  | delay ms => exact .event (.delayReq ms) ((h.emit _).setDly true) rfl rfl
  | tx n => exact sendNext_alike h spc n
  | sync => exact syncPass_alike h spc

theorem awaitDelay_alike (h : s.RenderAgrees s') (spc : Nat) :
    MovesAlike s s' (s.awaitDelay spc) (s'.awaitDelay spc) := by
  obtain ⟨hstrobe, hdrawn⟩ := h.drawStrobe
  have htrace : s.drawStrobe.2.trace = s.trace := by rw [State.drawStrobe_frame]
  have htrace' : s'.drawStrobe.2.trace = s'.trace := by rw [State.drawStrobe_frame]
  unfold State.awaitDelay
  rw [← hstrobe, ← h.renderSeq]
  split
  · exact .silent ((hdrawn.setDly false).setSeq _) htrace htrace'
  · exact .silent hdrawn htrace htrace'

theorem sequencerStep_alike (h : s.RenderAgrees s') (spc : Nat) :
    MovesAlike s s' (s.sequencerStep spc) (s'.sequencerStep spc) := by
  unfold State.sequencerStep
  rw [← h.dly, ← h.renderSeq]
  split
  · exact awaitDelay_alike h spc
  · split
    · exact perform_alike h spc _
    · exact .silent (h.setSeq .idle) rfl rfl

end

/-- Settles O53: both steps are the sequencer's. -/
theorem renderDependsOnItsInputsAlone : Obligations.RenderDependsOnItsInputsAlone := by
  intro s s' t t' spc h hq hr hstep hstep'
  rw [step_running hr hq] at hstep
  rw [step_running (h.resetAsserted ▸ hr) (h.seq ▸ hq)] at hstep'
  cases hstep
  cases hstep'
  exact sequencerStep_alike h.tickReset spc

end Sys2Proof.Machine

/-! PROOFS. The invariant of the machine (R22, R30 to R32, R50 to R53, R125) holds after power-on reset and every step
keeps it. Its part about the Display is kept by every command; its part about the sequencer and the ports is an idle port
or a place in RENDER_SEQ, and each move of the sequencer leads from place to place. -/

namespace Sys2Proof.Machine

/-! ### The part about the Display -/

/-- What the invariant says of the parameters and the planes. -/
structure State.DisplayInv (s : State) : Prop where
  params : s.params.valid = true
  pWf : s.p.wf = true
  aWf : s.a.wf = true
  within : s.cfg = true →
    s.p.within 1 (planeLength s.geometry) = true ∧ s.a.within 1 (planeLength s.geometry) = true
  pairs : s.pairsLegal

theorem State.planesWf_iff (s : State) :
    s.planesWf = true ↔ s.p.wf = true ∧ s.a.wf = true ∧ (s.cfg = true →
      s.p.within 1 (planeLength s.geometry) = true ∧ s.a.within 1 (planeLength s.geometry) = true) := by
  cases hc : s.cfg <;> simp [State.planesWf, hc, and_assoc]

theorem State.inv_iff (s : State) : s.Inv ↔ s.DisplayInv ∧ s.portsWf = true := by
  constructor
  · rintro ⟨hparams, hplanes, hports, hpairs⟩
    obtain ⟨hp, ha, hin⟩ := s.planesWf_iff.1 hplanes
    exact ⟨⟨hparams, hp, ha, hin, hpairs⟩, hports⟩
  · rintro ⟨⟨hparams, hp, ha, hin, hpairs⟩, hports⟩
    exact ⟨hparams, s.planesWf_iff.2 ⟨hp, ha, hin⟩, hports, hpairs⟩

namespace State.DisplayInv

variable {s t : State}

/-- The part about the Display reads five fields. -/
theorem congr (h : s.DisplayInv) (hcfg : t.cfg = s.cfg) (hvar : t.var = s.var) (hp : t.p = s.p) (ha : t.a = s.a)
    (hparams : t.params = s.params) : t.DisplayInv := by
  have hgeo : t.geometry = s.geometry := congrArg₂ dims hparams hvar
  refine ⟨?_, ?_, ?_, ?_, ?_⟩
  · rw [hparams]; exact h.params
  · rw [hp]; exact h.pWf
  · rw [ha]; exact h.aWf
  · rw [hcfg, hp, ha, hgeo]; exact h.within
  · rw [State.pairsLegal, hcfg, hp, ha]; exact h.pairs

/-- Empty planes meet it in every variant. -/
theorem of_nil (hparams : s.params.valid = true) (hp : s.p = []) (ha : s.a = []) : s.DisplayInv where
  params := hparams
  pWf := by rw [hp]; exact Memory.wf_nil
  aWf := by rw [ha]; exact Memory.wf_nil
  within _ := by rw [hp, ha]; exact ⟨Memory.within_nil _ _, Memory.within_nil _ _⟩
  pairs _ i := by rw [hp, ha, Memory.read_nil]; rfl

/-- R233: the free values that DESTROY leaves in the planes are canonical, and without a Display no more is asked. -/
theorem releaseDisplay (h : s.DisplayInv) : s.releaseDisplay.DisplayInv where
  params := h.params
  pWf := Memory.wf_ofBytes _
  aWf := Memory.wf_ofBytes _
  within hc := absurd hc (by simp)
  pairs hc := absurd hc (by simp)

end State.DisplayInv

/-- R125: the accent bit of a pixel value comes with its primary bit. -/
theorem encPrimary_of_encAccent {v : PixelValue} (h : encAccent v = true) : encPrimary v = true := by
  cases v <;> simp_all [encAccent, encPrimary]

/-- No pixel has the pair (0, 1): bit by bit, an accent bit comes with its primary bit. -/
theorem and_not_eq_zero_iff {a p : Byte} :
    a &&& ~~~p = 0#8 ↔ ∀ k, k < 8 → a.getLsbD k = true → p.getLsbD k = true := by
  constructor
  · intro h k hk hak
    have hbit := congrArg (BitVec.getLsbD · k) h
    simpa [hk, hak] using hbit
  · intro h
    apply BitVec.eq_of_getLsbD_eq
    intro k hk
    cases hak : a.getLsbD k
    · simp [hak]
    · simp [hak, h k hk hak]

/-- R53, R124, R125: pixel writes with a Display list indices from 1 to L - 1 alone and write no pair (0, 1). -/
theorem State.DisplayInv.paint {s : State} (h : s.DisplayInv) (hc : s.cfg = true) (v : PixelValue)
    (ps : List (Nat × Nat)) : (s.paint v ps).DisplayInv := by
  obtain ⟨hin, hin'⟩ := h.within hc
  obtain ⟨hwf, hwf'⟩ := State.paint_wf v ps h.pWf h.aWf
  refine ⟨by simpa using h.params, hwf, hwf', fun _ => ?within,
    fun _ i => and_not_eq_zero_iff.2 fun k hk hak => ?pairs⟩
  case within =>
    rw [State.geometry_paint]
    exact State.paint_within v ps hin hin'
  case pairs =>
    rw [State.getLsbD_paint_a v ps h.pWf h.aWf i hk] at hak
    rw [State.getLsbD_paint_p v ps h.pWf h.aWf i hk]
    split at hak
    · next hland => rw [if_pos hland]; exact encPrimary_of_encAccent hak
    · next hland => rw [if_neg hland]; exact and_not_eq_zero_iff.1 (h.pairs hc i) k hk hak

/-- Every command keeps the part about the Display. -/
theorem exec_keeps_displayInv {i : Instr} {s t : State} (h : s.DisplayInv) (hexec : exec i s = .next t) :
    t.DisplayInv := by
  cases exec_cases hexec with
  | configured => exact .of_nil h.params rfl rfl
  | released => exact h.releaseDisplay
  | painted _ hc v ps => exact h.paint hc v ps
  | bordered | started | responded | raised | raisedReading => exact h.congr rfl rfl rfl rfl rfl

/-! ### The part about the sequencer and the ports -/

/-- An idle sequencer: what the invariant says of the ports (R30, R31, R32). -/
theorem State.portsWf_idle {s : State} (hq : s.seq = .idle) :
    s.portsWf = true ↔
      s.dly = false ∧ s.sent = 0 ∧ commandComplete s.parse = false ∧ (s.resp = none ∨ s.parse = []) := by
  simp [State.portsWf, hq, and_assoc]

/-- A place of a running render: the step pointer, the events sent of its action, and whether a delay is pending
(R22, R32; log 23). -/
def State.PlaceWf (s : State) (spc sent : Nat) (dly : Bool) : Prop :=
  spc ≤ s.renderSeq.length ∧ sent ≤ s.sentLimit (s.renderSeq[spc]?) ∧
    (dly = true → delayable (s.renderSeq[spc]?) = true ∧ sent = 0)

/-- A running sequencer: what the invariant says of it and of the closed ports (R30, R31, R170). -/
theorem State.portsWf_run {s : State} {spc : Nat} (hq : s.seq = .run spc) :
    s.portsWf = true ↔ s.cfg = true ∧ s.parse = [] ∧ s.resp = none ∧ s.PlaceWf spc s.sent s.dly := by
  cases hd : s.dly <;> simp [State.portsWf, State.PlaceWf, hq, hd, and_assoc, Nat.ble_eq]

/-- An action with nothing of it sent, or the end of the sequence, is a place. -/
theorem State.PlaceWf.of_le {s : State} {spc : Nat} (h : spc ≤ s.renderSeq.length) : s.PlaceWf spc 0 false :=
  ⟨h, Nat.zero_le _, fun hd => absurd hd (by decide)⟩

/-- After an action comes a place (R22). -/
theorem State.PlaceWf.next {s : State} {spc : Nat} {act : Action} (ha : s.renderSeq[spc]? = some act) :
    s.PlaceWf (spc + 1) 0 false := by
  obtain ⟨hlt, -⟩ := List.getElem?_eq_some_iff.1 ha
  exact .of_le hlt

/-- A delay pending at an action that waits for one, with nothing of it sent, is a place (R32). -/
theorem State.PlaceWf.delayed {s : State} {spc : Nat} {act : Action} (ha : s.renderSeq[spc]? = some act)
    (hd : delayable (some act) = true) : s.PlaceWf spc 0 true := by
  obtain ⟨hlt, -⟩ := List.getElem?_eq_some_iff.1 ha
  exact ⟨Nat.le_of_lt hlt, Nat.zero_le _, fun _ => ⟨ha ▸ hd, rfl⟩⟩

/-- An action with a further event to come is a place (log 23). -/
theorem State.PlaceWf.sending {s : State} {spc sent : Nat} {act : Action} (ha : s.renderSeq[spc]? = some act)
    (hs : sent ≤ s.sentLimit (some act)) : s.PlaceWf spc sent false := by
  obtain ⟨hlt, -⟩ := List.getElem?_eq_some_iff.1 ha
  exact ⟨Nat.le_of_lt hlt, ha ▸ hs, fun hd => absurd hd (by decide)⟩

/-- Where no event of the action can have another behind it, none is sent (log 23). -/
theorem State.PlaceWf.sent_eq_zero {s : State} {spc sent : Nat} {dly : Bool} (h : s.PlaceWf spc sent dly)
    (hlim : s.sentLimit (s.renderSeq[spc]?) = 0) : sent = 0 := by
  obtain ⟨-, hsent, -⟩ := h
  rwa [hlim, Nat.le_zero] at hsent

/-- DLY_DONE leads from a place with a pending delay to a place (R171, R180). -/
theorem State.PlaceWf.released {s : State} {spc sent : Nat} (h : s.PlaceWf spc sent true) :
    s.PlaceWf (afterDelay spc (s.renderSeq[spc]?)) sent false := by
  obtain ⟨hle, -, hdelay⟩ := h
  obtain ⟨hdelayable, rfl⟩ := hdelay rfl
  cases ha : s.renderSeq[spc]? with
  | none => exact .of_le hle
  | some act =>
    cases act with
    | delay ms => exact .next ha
    | pin | tx | sync => exact .of_le hle

/-- The places are read from fields that no step of the sequencer writes (R173). -/
theorem State.placeWf_sequencerStep (s : State) (m spc sent : Nat) (dly : Bool) :
    (s.sequencerStep m).PlaceWf spc sent dly ↔ s.PlaceWf spc sent dly := by
  rw [State.sequencerStep_frame]
  rfl

/-- A move of the sequencer leads from a place to a place, or ends the render with nothing pending (R22, R184). -/
theorem State.sequencerStep_place {s : State} {spc : Nat} (hq : s.seq = .run spc) (h : s.PlaceWf spc s.sent s.dly) :
    (∃ spc', (s.sequencerStep spc).seq = .run spc' ∧
        s.PlaceWf spc' (s.sequencerStep spc).sent (s.sequencerStep spc).dly) ∨
      ((s.sequencerStep spc).seq = .idle ∧ (s.sequencerStep spc).sent = 0 ∧ (s.sequencerStep spc).dly = false) := by
  have hcase := State.sequencerStep_cases spc s
  generalize s.sequencerStep spc = t at hcase ⊢
  cases hcase with
  | held => rw [State.drawStrobe_frame]; exact .inl ⟨spc, hq, h⟩
  | released hd =>
    rw [State.drawStrobe_frame]
    exact .inl ⟨_, rfl, (hd ▸ h).released⟩
  | pin hd l v ha => exact .inl ⟨_, rfl, hd ▸ .next ha⟩
  | delay hd ms ha => exact .inl ⟨spc, hq, h.sent_eq_zero (ha ▸ rfl) ▸ .delayed ha rfl⟩
  | send hd n ha e he hlt => exact .inl ⟨spc, hq, hd ▸ .sending ha (Nat.le_sub_one_of_lt hlt)⟩
  | sendLast hd n ha => exact .inl ⟨_, rfl, hd ▸ .next ha⟩
  | sentAll hd n ha => exact .inl ⟨_, rfl, hd ▸ .next ha⟩
  | busy hd ha => rw [State.drawLevel_frame]; exact .inl ⟨spc, hq, hd ▸ .sending ha (le_refl 1)⟩
  | ready hd ha => rw [State.drawLevel_frame]; exact .inl ⟨_, rfl, hd ▸ .next ha⟩
  | repoll hd ha => exact .inl ⟨spc, hq, .delayed ha rfl⟩
  | finished hd ha => exact .inr ⟨rfl, h.sent_eq_zero (ha ▸ rfl), hd⟩

/-- A move of the sequencer keeps the part about the sequencer and the ports. -/
theorem State.sequencerStep_portsWf {s : State} {spc : Nat} (hq : s.seq = .run spc) (h : s.portsWf = true) :
    (s.sequencerStep spc).portsWf = true := by
  obtain ⟨hcfg, hparse, hresp, hplace⟩ := (State.portsWf_run hq).1 h
  rcases State.sequencerStep_place hq hplace with ⟨spc', hq', hplace'⟩ | ⟨hq', hsent, hdly⟩
  · refine (State.portsWf_run hq').2 ⟨by simpa using hcfg, by simpa using hparse, by simpa using hresp, ?_⟩
    exact (s.placeWf_sequencerStep _ _ _ _).2 hplace'
  · refine (State.portsWf_idle hq').2 ⟨hdly, hsent, ?_, .inl (by simpa using hresp)⟩
    rw [State.sequencerStep_parse, hparse]
    rfl

/-- A command that runs at an open port, its words gone from PARSE, keeps the part about the sequencer and the ports:
RENDER opens the first place, and no other command moves SEQ. -/
theorem exec_portsWf {i : Instr} {s t : State} (hexec : exec i s = .next t) (hq : s.seq = .idle)
    (hdly : s.dly = false) (hsent : s.sent = 0) (hparse : s.parse = []) (hresp : s.resp = none) :
    t.portsWf = true := by
  obtain ⟨-, -, -, hseq, hparse', hdly', -, -, -, -, -, -, hsent', -⟩ := commandAccessTable s t i hexec
  rw [hparse] at hparse'
  rw [hdly] at hdly'
  rw [hsent] at hsent'
  have hidle (hq' : t.seq = .idle) : t.portsWf = true :=
    (State.portsWf_idle hq').2 ⟨hdly', hsent', by rw [hparse']; rfl, .inr hparse'⟩
  cases exec_cases hexec with
  | started hc =>
    refine (State.portsWf_run rfl).2 ⟨hc, hparse, hresp, ?_⟩
    rw [hsent', hdly']
    exact .of_le (Nat.zero_le _)
  | painted _ _ v ps => exact hidle ((State.paint_seq v ps s).trans hq)
  | configured | released | bordered | responded | raised | raisedReading => exact hidle hq

/-! ### The invariant -/

/-- The fields that only CONFIGURE, DESTROY and the pixel commands write carry the part about the Display over. -/
theorem State.Inv.of_ports {s t : State} (h : s.Inv) (hcfg : t.cfg = s.cfg) (hvar : t.var = s.var) (hp : t.p = s.p)
    (ha : t.a = s.a) (hparams : t.params = s.params) (hports : t.portsWf = true) : t.Inv :=
  t.inv_iff.2 ⟨(s.inv_iff.1 h).1.congr hcfg hvar hp ha hparams, hports⟩

/-- While SEQ is idle, a move that is no command keeps the invariant when it leaves no whole command in PARSE, and
none of one beside a waiting response (R30, R31). -/
theorem State.Inv.of_port {s t : State} (h : s.Inv) (hq : s.seq = .idle)
    (ht : t = { s with
      fault := t.fault, parse := t.parse, resp := t.resp, responses := t.responses, words := t.words
      takes := t.takes, resetLine := t.resetLine, draws := t.draws })
    (hc : commandComplete t.parse = false) (hp : t.resp = none ∨ t.parse = []) : t.Inv := by
  obtain ⟨hdly, hsent, -, -⟩ := (State.portsWf_idle hq).1 h.ports
  have hq' : t.seq = .idle := by rw [ht]; exact hq
  have hdly' : t.dly = false := by rw [ht]; exact hdly
  have hsent' : t.sent = 0 := by rw [ht]; exact hsent
  refine h.of_ports ?_ ?_ ?_ ?_ ?_ ((State.portsWf_idle hq').2 ⟨hdly', hsent', hc, hp⟩) <;> rw [ht]

/-- A state with empty planes and ports at rest has the invariant. -/
theorem State.inv_of_rest {s : State} (hparams : s.params.valid = true) (hp : s.p = []) (ha : s.a = [])
    (hports : s.portsWf = true) : s.Inv := s.inv_iff.2 ⟨.of_nil hparams hp ha, hports⟩

/-- Settles O59. -/
theorem powerUpMeetsInvariant : Obligations.PowerUpMeetsInvariant :=
  ⟨State.inv_of_rest Config.block.ok rfl rfl rfl, fun _ _ _ _ _ _ hvalid => State.inv_of_rest hvalid rfl rfl rfl⟩

/-- Settles O58, agent by agent. -/
theorem stepKeepsInvariant : Obligations.StepKeepsInvariant := by
  intro s t hinv hstep
  obtain ⟨hdisplay, hports⟩ := s.inv_iff.1 hinv
  obtain ⟨r, hres, hcase⟩ := stepCase_of_next hstep
  cases hcase with
  | powerOn => cases hres; exact State.inv_of_rest hdisplay.params rfl rfl rfl
  | sequencer _ spc hq =>
    cases hres
    refine hinv.of_ports ?_ ?_ ?_ ?_ ?_ (State.sequencerStep_portsWf (s := s.tickReset) hq hports) <;> simp
  | host _ hq w hw =>
    cases hres
    obtain ⟨-, -, hc, hp⟩ := (State.portsWf_idle hq).1 hports
    have hparse : s.parse = [] := hp.resolve_left (by simp [hw])
    rw [State.awaitHost_frame]
    exact hinv.of_port hq rfl hc (.inr hparse)
  | waiting _ hq hw =>
    cases hres
    obtain ⟨-, -, hc, -⟩ := (State.portsWf_idle hq).1 hports
    exact hinv.of_port hq rfl hc (.inl hw)
  | partialCommand _ hq hw w rest _ hc => cases hres; exact hinv.of_port hq rfl hc (.inl hw)
  | illegal _ hq _ w rest _ _ opc =>
    cases hres
    rw [State.rejectCommand_eq]
    exact hinv.of_port hq rfl rfl (.inr rfl)
  | command _ hq hw =>
    obtain ⟨hdly, hsent, -, -⟩ := (State.portsWf_idle hq).1 hports
    refine t.inv_iff.2 ⟨exec_keeps_displayInv ?_ hres, exec_portsWf hres hq hdly hsent rfl hw⟩
    exact hdisplay.congr rfl rfl rfl rfl rfl

end Sys2Proof.Machine

/-! PROOFS. The plane memories and what RENDER makes of them: indices from 1 to L - 1 alone are written (R53, R124), a
render leaves the planes and what else it reads alone (R56, R173), and the transfers and windows carry the planes and the
geometry of the latched variant (R54, R58). -/

namespace Sys2Proof.Machine

/-! ### The translator (R53, R124) -/

/-- Settles O8. -/
theorem translatorStaysInside : Obligations.TranslatorStaysInside := fun _ _ _ _ _ _ h => translator_bounds h

/-! ### What the canonical planes of a Display hold (R50, R53) -/

/-- With a Display, byte 0 of each plane and every byte from L on is 0x00. -/
theorem State.read_planes_outside {s : State} (hc : s.cfg = true) (h : s.planesWf = true) {i : Nat}
    (hi : i < 1 ∨ planeLength s.geometry ≤ i) : s.p.read i = 0x00#8 ∧ s.a.read i = 0x00#8 := by
  obtain ⟨-, -, hin⟩ := s.planesWf_iff.1 h
  obtain ⟨hp, ha⟩ := hin hc
  exact ⟨Memory.read_outside hp hi, Memory.read_outside ha hi⟩

/-- Every state of a run from power-up with valid parameters has the invariant. -/
theorem run_powerUp_inv {params : Params} (hvalid : params.valid = true) {words : List Word}
    {takes strobes : List Bool} {levels : List Level} {resetLine : List Bool} {n : Nat} {t : State}
    (hrun : Sys2Proof.core.run n (State.powerUp params words takes strobes levels resetLine) = .next t) : t.Inv :=
  run_induction stepKeepsInvariant n (powerUpMeetsInvariant.2 params words takes strobes levels resetLine hvalid) hrun

/-- Settles O60: the invariant holds along every run, and says it of the planes of a Display. -/
theorem planesOfEveryRun : Obligations.PlanesOfEveryRun := by
  intro params words takes strobes levels resetLine n t hvalid hrun hc
  have hinv : t.Inv := run_powerUp_inv hvalid hrun
  obtain ⟨hp, ha⟩ := State.read_planes_outside hc hinv.planes (.inl Nat.zero_lt_one)
  refine ⟨hp, ha, fun i hi => State.read_planes_outside hc hinv.planes (.inr hi), fun i k hak => ?_⟩
  exact and_not_eq_zero_iff.1 (hinv.pairs hc i) k (BitVec.lt_of_getLsbD hak) hak

/-! ### A step of a render (R56, R173, R295) -/

/-- A step of the sequencer adds its event, if it emits one, at the end of the trace. -/
theorem State.sequencerStep_trace (spc : Nat) (s : State) :
    ∃ es, (s.sequencerStep spc).trace = s.trace ++ es := by
  have hcase := State.sequencerStep_cases spc s
  generalize s.sequencerStep spc = t at hcase ⊢
  cases hcase with
  | held | released => rw [State.drawStrobe_frame]; exact ⟨[], (List.append_nil _).symm⟩
  | sentAll | finished => exact ⟨[], (List.append_nil _).symm⟩
  | busy | ready => rw [State.drawLevel_frame]; exact ⟨[_], rfl⟩
  | pin | delay | send | sendLast | repoll => exact ⟨[_], rfl⟩

/-- Settles O39: while a render runs, the step is the sequencer's. -/
theorem renderStepFrame : Obligations.RenderStepFrame := by
  intro s spc hr hq
  exact ⟨_, step_running hr hq, s.tickReset.sequencerStep_frame spc, s.tickReset.sequencerStep_trace spc⟩

/-! ### The plane transfers (R54, R59, R178) -/

theorem Memory.getElem?_firstBytes (m : Memory) {n i : Nat} (h : i < n) : (m.firstBytes n)[i]? = some (m.read i) := by
  rw [List.getElem?_eq_getElem (by simpa using h), Memory.getElem_firstBytes]

/-- Settles O45. -/
theorem planeTransferBytes : Obligations.PlaneTransferBytes := by
  intro s
  have hbytes (i : Nat) (hi : i < planeLength s.geometry - 1) :
      (s.txPayload .writeRam)[i]? = some (s.p.read i) ∧ (s.txPayload .writeRamAlt)[i]? = some (s.a.read i) :=
    ⟨s.p.getElem?_firstBytes hi, s.a.getElem?_firstBytes hi⟩
  refine ⟨s.p.length_firstBytes _, s.a.length_firstBytes _, hbytes, fun hc hwf hL => ?first⟩
  case first =>
    obtain ⟨hp, ha⟩ := State.read_planes_outside hc hwf (.inl Nat.zero_lt_one)
    have hzero := hbytes 0 (Nat.sub_pos_of_lt hL)
    rw [hp, ha] at hzero
    simpa only [List.head?_eq_getElem?] using hzero

/-! ### The windows (R58, R97) -/

theorem toNat_lo8 (v : Nat) : (lo8 v).toNat = v % 256 := by
  simp [lo8]

/-- The two bytes of a 16-bit value carry it with no loss (R12). -/
theorem toNat_lo8_add_hi8 {v : Nat} (h : v < 65536) : (lo8 v).toNat + 256 * (hi8 v).toNat = v := by
  simp only [lo8, hi8, BitVec.toNat_ofNat]
  omega

/-- The limits of R6 on the RAM columns and rows, which the window payloads carry. -/
theorem Geometry.cols_rows_le_of_valid {g : Geometry} (h : g.valid = true) : g.cols ≤ 2048 ∧ g.rows ≤ 65535 := by
  simp only [Geometry.valid, Bool.and_eq_true, Nat.ble_eq] at h
  obtain ⟨⟨⟨⟨⟨⟨⟨-, hcols⟩, -⟩, -⟩, -⟩, -⟩, -⟩, hrows⟩ := h
  exact ⟨hcols, hrows⟩

/-- R6, R120: the latched variant's geometry is within the limits of R6. -/
theorem State.geometry_valid {s : State} (h : s.params.valid = true) : s.geometry.valid = true := by
  obtain ⟨⟨hmatching, hrotated⟩, -⟩ : (_ ∧ _) ∧ _ := by simpa only [Params.valid, Bool.and_eq_true] using h
  unfold State.geometry
  cases s.var with
  | matching => exact hmatching
  | rotated => exact hrotated

/-- Settles O46: R - 1 fits 16 bits and C/8 - 1 fits 8. -/
theorem windowPayloadsLittleEndian : Obligations.WindowPayloadsLittleEndian := by
  intro s hvalid
  obtain ⟨hcols, hrows⟩ := Geometry.cols_rows_le_of_valid (State.geometry_valid hvalid)
  have hlast : s.geometry.cols / 8 - 1 < 256 := by omega
  refine ⟨⟨_, _, rfl, rfl, toNat_lo8_add_hi8 (by omega)⟩, ⟨_, rfl, ?_⟩, rfl, rfl⟩
  rw [toNat_lo8, Nat.mod_eq_of_lt hlast]

end Sys2Proof.Machine

/-! PROOFS. The decoder and the encoder (R80 to R90, R99): which words match a row of the opcode table, how long a
command is, and that a command which decodes has, but for unused bitmap bytes, the words that the encoder writes. -/

namespace Sys2Proof

/-! ### The opcode and the rows of the opcode table (R81, R86) -/

/-- R81: bits 31:28 of a word are the code of its opcode. -/
theorem Opcode.code_ofWord (w0 : Word) : (Opcode.ofWord w0).code = w0.extractLsb' 28 4 := by
  unfold Opcode.ofWord
  generalize w0.extractLsb' 28 4 = c
  revert c
  decide

/-- A field that a row fixes in full holds the row's value in every word that matches the row (R86). -/
theorem extract_of_row {w0 mask value : Word} (h : w0 &&& mask = value) {start len : Nat}
    (hmask : mask.extractLsb' start len = BitVec.allOnes len) :
    w0.extractLsb' start len = value.extractLsb' start len := by
  rw [← h, BitVec.extractLsb'_and, hmask, BitVec.and_allOnes]

/-- R86: a word that matches the row of an opcode has that opcode. -/
theorem Opcode.ofWord_of_row {w0 : Word} {opc : Opcode} (h : w0 &&& opc.maskBits = opc.matchBits) :
    Opcode.ofWord w0 = opc :=
  Opcode.ofWord_eq ((extract_of_row h (by cases opc <;> rfl)).trans (by cases opc <;> rfl))

theorem headerMatches_iff {w0 : Word} {opc : Opcode} (hop : Opcode.ofWord w0 = opc) :
    headerMatches w0 = true ↔ w0 &&& opc.maskBits = opc.matchBits := by
  rw [headerMatches, hop, beq_iff_eq]

/-- Settles O3: every row fixes bits 31:28 to its own opcode. -/
theorem opcodeRowsDoNotOverlap : Obligations.OpcodeRowsDoNotOverlap := by
  intro w0 opc
  constructor
  · intro h
    have hop := Opcode.ofWord_of_row h
    exact ⟨hop, (headerMatches_iff hop).2 h⟩
  · rintro ⟨hop, hmatch⟩
    exact (headerMatches_iff hop).1 hmatch

/-! ### Lengths (R87) -/

/-- The opcode as statements write it. -/
theorem Opcode.toNat_ushiftRight (w0 : Word) : (w0 >>> 28).toNat = (Opcode.ofWord w0).code.toNat := by
  rw [Opcode.code_ofWord, BitVec.extractLsb'_toNat, BitVec.toNat_ushiftRight, Nat.mod_eq_of_lt]
  have := w0.isLt
  omega

theorem toNat_lowHalf (w : Word) : (lowHalf w).toNat = w.toNat % 65536 := by
  rw [lowHalf, BitVec.extractLsb'_toNat, Nat.shiftRight_zero]

theorem commandLength_le {ws : List Word} {n : Nat} (h : commandLength ws = some n) : n ≤ 3 + 16384 := by
  cases ws with
  | nil => cases h
  | cons w0 rest =>
    unfold commandLength at h
    cases hop : Opcode.ofWord w0 with
    | drawBitmap =>
      cases hw2 : rest[1]? with
      | none => simp [hop, hw2] at h
      | some w2 =>
        have hW := (lowHalf w2).isLt
        simp only [hop, hw2, Option.some.injEq, payloadWords] at h
        omega
    | _ => simp only [hop, Option.some.injEq] at h; omega

/-- Settles O5, opcode by opcode. -/
theorem commandLengthRule : Obligations.CommandLengthRule := by
  refine ⟨fun w0 w1 w2 rest => ?whole, fun w0 tail htail => ?short,
    fun ws n h => ⟨commandLength_pos h, commandLength_le h⟩⟩
  case whole =>
    rw [Opcode.toNat_ushiftRight, ← toNat_lowHalf]
    cases hop : Opcode.ofWord w0 <;> simp [commandLength, hop, Opcode.code, payloadWords]
  case short =>
    have hw2 : tail[1]? = none := List.getElem?_eq_none htail
    rw [Opcode.toNat_ushiftRight]
    cases hop : Opcode.ofWord w0 <;> simp [commandLength, hop, Opcode.code, hw2]

/-! ### From words to a command and back (R85, R88, R89, R99) -/

/-- What an answer of the decoder says of the words (R88, R89). -/
theorem decode_eq_ok {ws rest : List Word} {i : Instr} (h : decode ws = .ok (i, rest)) :
    ∃ w0 tail n, ws = w0 :: tail ∧ commandLength ws = some n ∧ n ≤ ws.length ∧ headerMatches w0 = true ∧
      i = decodeFields w0 tail ∧ rest = ws.drop n := by
  obtain ⟨w0, tail, n, hws, hlen, hle, hdec⟩ := decode_of_complete (Machine.commandComplete_of_decode h)
  rw [h] at hdec
  split at hdec
  · next hmatch => cases hdec; exact ⟨w0, tail, n, hws, hlen, hle, hmatch, rfl, rfl⟩
  · cases hdec

theorem wellFormed_decodeFields (w0 : Word) (tail : List Word) : (decodeFields w0 tail).wellFormed = true := by
  cases hop : Opcode.ofWord w0 <;> simp [decodeFields, hop, Instr.wellFormed]

theorem Opcode.matchBits_eq (opc : Opcode) : opc.matchBits = opc.code ++ 0#28 := by
  cases opc <;> rfl

/-- R86: below OPC, the bits that a row fixes are zero. -/
theorem field_eq_zero_of_row {w0 : Word} {opc : Opcode} (h : w0 &&& opc.maskBits = opc.matchBits) {start len : Nat}
    (hmask : opc.maskBits.extractLsb' start len = BitVec.allOnes len) (hbelow : start + len ≤ 28) :
    w0.extractLsb' start len = 0#len := by
  rw [extract_of_row h hmask, opc.matchBits_eq]
  apply BitVec.eq_of_getLsbD_eq
  intro i hi
  rw [BitVec.getLsbD_extractLsb', BitVec.getLsbD_append, if_pos (by omega)]
  simp

/-- A word that matches the row of an opcode is the header of its fields, where the row fixes bits 21:0 (R86, R99). -/
theorem encodeHeader_of_row {w0 : Word} {opc : Opcode} (h : w0 &&& opc.maskBits = opc.matchBits)
    (hlow : opc.maskBits.extractLsb' 0 22 = BitVec.allOnes 22) {pvc varc modec : BitVec 2} (hpv : pvField w0 = pvc)
    (hvar : varField w0 = varc) (hmode : modeField w0 = modec) : encodeHeader opc pvc varc modec = w0 := by
  rw [encodeHeader, ← hpv, ← hvar, ← hmode, ← field_eq_zero_of_row h hlow (by decide), ← Opcode.ofWord_of_row h,
    Opcode.code_ofWord, pvField, varField, modeField]
  rw [BitVec.extractLsb'_append_extractLsb'_eq_extractLsb' (show 28 = 26 + 2 from rfl),
    BitVec.extractLsb'_append_extractLsb'_eq_extractLsb' (show 26 = 24 + 2 from rfl),
    BitVec.extractLsb'_append_extractLsb'_eq_extractLsb' (show 24 = 22 + 2 from rfl),
    BitVec.extractLsb'_append_extractLsb'_eq_extractLsb' (show 22 = 0 + 22 from rfl)]
  exact BitVec.extractLsb'_eq_self

theorem encodeReserved_lowField (w0 : Word) : encodeReserved (Opcode.ofWord w0) (lowField w0) = w0 := by
  rw [encodeReserved, Opcode.code_ofWord, lowField,
    BitVec.extractLsb'_append_extractLsb'_eq_extractLsb' (show 28 = 0 + 28 from rfl)]
  exact BitVec.extractLsb'_eq_self

theorem encodeHalves_halves (w : Word) : encodeHalves (highHalf w) (lowHalf w) = w := by
  rw [encodeHalves, highHalf, lowHalf, BitVec.extractLsb'_append_extractLsb'_eq_extractLsb' (show 16 = 0 + 16 from rfl)]
  exact BitVec.extractLsb'_eq_self

/-- The encoder writes word 0 of a command as the decoder found it: the row of its opcode leaves only operands free. -/
theorem head?_encode_decodeFields {w0 : Word} (hmatch : headerMatches w0 = true) (tail : List Word) :
    (encode (decodeFields w0 tail)).head? = some w0 := by
  have hreserved := encodeReserved_lowField w0
  have hrow := (headerMatches_iff rfl).1 hmatch
  unfold decodeFields
  cases hop : Opcode.ofWord w0 <;> rw [hop] at hrow hreserved
  case configure =>
    exact congrArg some (encodeHeader_of_row hrow rfl (field_eq_zero_of_row hrow rfl (by decide)) rfl rfl)
  case setPixel | setPixels | drawBitmap | setBorder =>
    exact congrArg some (encodeHeader_of_row hrow rfl rfl (field_eq_zero_of_row hrow rfl (by decide))
      (field_eq_zero_of_row hrow rfl (by decide)))
  case destroy | getWidth | getHeight | render | getStatus =>
    exact congrArg some (encodeHeader_of_row hrow rfl (field_eq_zero_of_row hrow rfl (by decide))
      (field_eq_zero_of_row hrow rfl (by decide)) (field_eq_zero_of_row hrow rfl (by decide)))
  all_goals exact congrArg some hreserved

/-- The words of a command with no bitmap are those that the encoder writes. -/
theorem encode_decodeFields {w0 : Word} {tail : List Word} {n : Nat} (hmatch : headerMatches w0 = true)
    (hne : Opcode.ofWord w0 ≠ .drawBitmap) (hlen : commandLength (w0 :: tail) = some n)
    (hle : n ≤ (w0 :: tail).length) : encode (decodeFields w0 tail) = (w0 :: tail).take n := by
  have hhead := head?_encode_decodeFields hmatch tail
  unfold decodeFields at hhead ⊢
  unfold commandLength at hlen
  cases hop : Opcode.ofWord w0 <;> simp only [hop, Option.some.injEq] at hhead hlen ⊢
  case drawBitmap => exact absurd hop hne
  case setPixel =>
    subst hlen
    obtain _ | ⟨w1, tail⟩ := tail
    · simp at hle
    · simpa [encode, encodeHalves_halves] using hhead
  case setPixels =>
    subst hlen
    obtain _ | ⟨w1, _ | ⟨w2, tail⟩⟩ := tail
    · simp at hle
    · simp at hle
    · simpa [encode, encodeHalves_halves] using hhead
  all_goals
    subst hlen
    simpa [encode] using hhead

/-! ### Bitmaps (R90) -/

/-- A bitmap byte depends on the words of its payload alone. -/
theorem bitmapByte_take (payload : List Word) {w j : Nat} (hj : j < w) :
    bitmapByte (payload.take (payloadWords w)) j = bitmapByte payload j := by
  rw [bitmapByte, List.getElem?_take_of_lt (payloadWords_bound hj), ← bitmapByte]

theorem getElem?_bitmapBytes (payload : List Word) {w j : Nat} (hj : j < w) :
    (bitmapBytes payload w)[j]? = some (bitmapByte payload j) := by
  simp [bitmapBytes, hj]

/-- The encoder writes the bitmap bytes of a payload to their places. -/
theorem bitmapByte_encodePayload (payload : List Word) {w j : Nat} (hj : j < w) :
    bitmapByte (encodePayload (bitmapBytes payload w) w) j = bitmapByte payload j := by
  have hbytes := bitmapBytes_encodePayload (bitmapBytes payload w) []
  rw [List.append_nil, length_bitmapBytes] at hbytes
  have hget := congrArg (·[j]?) hbytes
  simpa only [getElem?_bitmapBytes _ hj, Option.some.injEq] using hget

/-- The words of a DRAW_BITMAP: the encoder writes the first three as they are, and as many payload words. -/
theorem encode_decodeFields_drawBitmap {w0 w1 w2 : Word} (payload : List Word) (hmatch : headerMatches w0 = true)
    (hop : Opcode.ofWord w0 = .drawBitmap) :
    encode (decodeFields w0 (w1 :: w2 :: payload)) =
      w0 :: w1 :: w2 ::
        encodePayload (bitmapBytes payload (lowHalf w2).toNat) (lowHalf w2).toNat := by
  have hhead := head?_encode_decodeFields hmatch (w1 :: w2 :: payload)
  simp only [decodeFields, hop] at hhead ⊢
  simpa [encode, encodeHalves_halves] using hhead

/-- A DRAW_BITMAP whose length is known has its words 1 and 2. -/
theorem commandLength_drawBitmap {w0 : Word} {tail : List Word} {n : Nat} (hop : Opcode.ofWord w0 = .drawBitmap)
    (h : commandLength (w0 :: tail) = some n) :
    ∃ w1 w2 payload, tail = w1 :: w2 :: payload ∧ n = 3 + payloadWords (lowHalf w2).toNat := by
  match tail with
  | [] | [w1] => simp [commandLength, hop] at h
  | w1 :: w2 :: payload =>
    simp only [commandLength, hop, List.getElem?_cons_succ, List.getElem?_cons_zero, Option.some.injEq] at h
    exact ⟨w1, w2, payload, rfl, h.symm⟩

/-- Settles O2, by whether the command has a bitmap. -/
theorem decodedWordsAreTheEncoding : Obligations.DecodedWordsAreTheEncoding := by
  intro ws rest i h
  obtain ⟨w0, tail, n, rfl, hlen, hle, hmatch, rfl, rfl⟩ := decode_eq_ok h
  refine ⟨wellFormed_decodeFields w0 tail, (w0 :: tail).take n, (List.take_append_drop n _).symm, ?_⟩
  by_cases hop : Opcode.ofWord w0 = .drawBitmap
  · obtain ⟨w1, w2, payload, rfl, rfl⟩ := commandLength_drawBitmap hop hlen
    have hused : (w0 :: w1 :: w2 :: payload).take (3 + payloadWords (lowHalf w2).toNat) =
        w0 :: w1 :: w2 :: payload.take (payloadWords (lowHalf w2).toNat) := by
      rw [Nat.add_comm]
      rfl
    have hpayload : payloadWords (lowHalf w2).toNat ≤ payload.length := by
      simp only [List.length_cons] at hle
      omega
    rw [hused, encode_decodeFields_drawBitmap payload hmatch hop]
    refine ⟨by simp [hpayload], rfl, fun pvc x y w h' bitmap hi j hj => ?_⟩
    have hw : w = lowHalf w2 := by
      simp only [decodeFields, hop, Instr.drawBitmap.injEq] at hi
      obtain ⟨-, -, -, hw, -⟩ := hi
      exact hw.symm
    subst hw
    exact (bitmapByte_take payload hj).trans (bitmapByte_encodePayload payload hj).symm
  · rw [encode_decodeFields hmatch hop hlen hle]
    exact ⟨rfl, rfl, fun _ _ _ _ _ _ _ _ _ => rfl⟩

/-- A whole DRAW_BITMAP decodes to the bytes of its payload (R88, R90). -/
theorem decode_drawBitmap {w0 w1 w2 : Word} {payload : List Word}
    (hrow : w0 &&& Opcode.maskBits .drawBitmap = Opcode.matchBits .drawBitmap)
    (hlen : payload.length = payloadWords (lowHalf w2).toNat) :
    decode (w0 :: w1 :: w2 :: payload) =
      .ok (.drawBitmap (pvField w0) (lowHalf w1) (highHalf w1) (lowHalf w2) (highHalf w2)
        (bitmapBytes payload (lowHalf w2).toNat), []) := by
  have hop := Opcode.ofWord_of_row hrow
  have hn : commandLength (w0 :: w1 :: w2 :: payload) = some (w0 :: w1 :: w2 :: payload).length := by
    simp only [commandLength, hop, List.getElem?_cons_succ, List.getElem?_cons_zero, List.length_cons, hlen]
    congr 1
    omega
  rw [decode, hn]
  simp [(headerMatches_iff hop).2 hrow, decodeFields, hop]

/-- Bit `k` of bitmap byte `j` is a bit of payload word `j / 4` (R90). -/
theorem getLsbD_bitmapByte {payload : List Word} {w j k : Nat} (hlen : payload.length = payloadWords w) (hj : j < w)
    (hk : k < 8) :
    (payload[j / 4]?).map (fun p => p.getLsbD (8 * (j % 4) + k)) = some ((bitmapByte payload j).getLsbD k) := by
  have hword : j / 4 < payload.length := hlen ▸ payloadWords_bound hj
  simp [bitmapByte, List.getElem?_eq_getElem hword, hk]

/-- Payloads that agree on the bits of every bitmap byte hold the same bytes (R90). -/
theorem bitmapBytes_congr {payload payload' : List Word} {w : Nat} (hlen : payload.length = payloadWords w)
    (hlen' : payload'.length = payloadWords w)
    (h : ∀ j k, j < w → k < 8 → (payload'[j / 4]?).map (fun p => p.getLsbD (8 * (j % 4) + k)) =
      (payload[j / 4]?).map (fun p => p.getLsbD (8 * (j % 4) + k))) :
    bitmapBytes payload' w = bitmapBytes payload w := by
  refine List.map_congr_left fun j hj => BitVec.eq_of_getLsbD_eq fun k hk => ?_
  have hj' := List.mem_range.1 hj
  have hbit := h j k hj' hk
  rwa [getLsbD_bitmapByte hlen hj' hk, getLsbD_bitmapByte hlen' hj' hk, Option.some.injEq] at hbit

/-- Settles O6. -/
theorem bitmapPayloadPacking : Obligations.BitmapPayloadPacking := by
  intro w0 w1 w2 payload hrow hlen
  rw [← toNat_lowHalf] at hlen ⊢
  refine ⟨_, _, _, _, _, _, decode_drawBitmap hrow hlen, rfl, length_bitmapBytes _ _, fun j k hj hk => ?bits,
    fun payload' hlen' hagree => ?unused⟩
  case bits => rw [getElem?_bitmapBytes payload hj, getLsbD_bitmapByte hlen hj hk, Option.map_some]
  case unused =>
    rw [decode_drawBitmap hrow (hlen'.trans hlen), bitmapBytes_congr hlen (hlen'.trans hlen) hagree]

/-- Settles O1: the length, the header and the fields of an encoding are read back whatever follows it. -/
theorem decodeEncodeRoundTrip : Obligations.DecodeEncodeRoundTrip := fun _ rest hi => decode_encode_append hi rest

/-- Settles O4: fixed words, evaluated. -/
theorem sampleWordsDecode : Obligations.SampleWordsDecode := ⟨rfl, rfl, rfl, rfl, rfl, rfl, rfl, rfl, rfl⟩

end Sys2Proof

/-! PROOFS. The commands that write BORDER, RESP or the pixels of a bitmap, each in full (R140, R145, R147, R235,
R238). -/

namespace Sys2Proof.Machine

/-! ### BORDER and RESP -/

/-- Settles O20, code by code. -/
theorem setBorderWritesBorder : Obligations.SetBorderWritesBorder := by
  intro s pvc v hc hcode
  refine (if_pos hc).trans ?_
  rcases hcode with ⟨rfl, rfl⟩ | ⟨rfl, rfl⟩ | ⟨rfl, rfl⟩ <;> rfl

/-- A response writes RESP alone (R238). -/
theorem State.next_respond (s : State) {n m : Nat} (h : n = m) :
    (.next (s.respond (BitVec.ofNat 32 n)) : Result) = .next { s with resp := some (BitVec.ofNat 32 m) } := by
  rw [h]
  rfl

/-- Settles O21, by the latched variant. -/
theorem getWidthResponds : Obligations.GetWidthResponds := by
  intro s hc
  refine (if_pos hc).trans (State.next_respond s ?_)
  rw [State.geometry]
  cases s.var <;> rfl

/-- With a Display, GET_HEIGHT responds with the one or the other dimension (R147). -/
theorem exec_getHeight {s : State} (hc : s.cfg = true) :
    exec .getHeight s = .next (s.respond (BitVec.ofNat 32
      (if s.params.heightParity then s.geometry.width else s.geometry.height))) := by
  refine (if_pos hc).trans ?_
  split <;> rfl

/-- Settles O22, by HEIGHT_PARITY and the latched variant. -/
theorem getHeightResponds : Obligations.GetHeightResponds := by
  intro s hc
  rw [exec_getHeight hc]
  refine State.next_respond s ?_
  rw [State.geometry]
  cases s.params.heightParity <;> cases s.var <;> rfl

theorem exec_getWidth_resp {s t : State} (h : exec .getWidth s = .next t) : ∃ w, t.resp = some w := by
  change execGetWidth s = .next t at h
  unfold execGetWidth at h
  split at h <;> cases h <;> exact ⟨_, rfl⟩

theorem exec_getHeight_resp {s t : State} (h : exec .getHeight s = .next t) : ∃ w, t.resp = some w := by
  change execGetHeight s = .next t at h
  unfold execGetHeight at h
  split at h
  · split at h <;> cases h <;> exact ⟨_, rfl⟩
  · cases h; exact ⟨_, rfl⟩

/-- Settles O29: the three reads one by one, the other commands by what they can do. -/
theorem onlyGetCommandsRespond : Obligations.OnlyGetCommandsRespond := by
  intro s t i h
  refine ⟨fun hi => ?responds, fun hi => ?silent⟩
  case responds =>
    rcases hi with rfl | rfl | rfl
    · exact exec_getWidth_resp h
    · exact exec_getHeight_resp h
    · cases h; exact ⟨_, rfl⟩
  case silent =>
    cases exec_cases h with
    | responded hi' | raisedReading hi' => exact absurd hi' hi
    | painted _ _ v ps => exact State.paint_resp v ps s
    | configured | released | bordered | started | raised => rfl

/-! ### DRAW_BITMAP (R90, R140) -/

/-- R84, R125: a legal PixelValue code and the pair of plane bits it stands for. -/
theorem decodePV_of_ne {pvc : BitVec 2} (h : pvc ≠ 3) :
    ∃ v, decodePV pvc = some v ∧ encPrimary v = decide (pvc ≠ 1) ∧ encAccent v = decide (pvc = 2) := by
  revert pvc
  decide

/-- The pixels of a bitmap are those of its set bits in rows below `h` (R140). -/
theorem exists_mem_bitmapPixels {x y h : Nat} {bitmap : List Byte} {Q : Nat → Nat → Prop} :
    (∃ q ∈ bitmapPixels x y bitmap.length h bitmap, Q q.1 q.2) ↔
      ∃ col b r, bitmap[col]? = some b ∧ r < h ∧ b.getLsbD r = true ∧ Q (x + col) (y + r) := by
  simp only [bitmapPixels, List.mem_flatMap, List.mem_map, List.mem_filter, List.mem_range, bitmapBit, bitmapAt]
  constructor
  · rintro ⟨_, ⟨col, hcol, r, ⟨hr, hbit⟩, rfl⟩, hq⟩
    have hget := List.getElem?_eq_getElem hcol
    rw [hget] at hbit
    exact ⟨col, _, r, hget, hr, hbit, hq⟩
  · rintro ⟨col, b, r, hget, hr, hbit, hq⟩
    obtain ⟨hcol, -⟩ := List.getElem?_eq_some_iff.1 hget
    exact ⟨_, ⟨col, hcol, r, ⟨hr, by rwa [hget]⟩, rfl⟩, hq⟩

/-- DRAW_BITMAP with a Display and legal operands writes its pixels (R140). -/
theorem exec_drawBitmap {s : State} {pvc : BitVec 2} {x y w h : BitVec 16} {bitmap : List Byte} {v : PixelValue}
    (hc : s.cfg = true) (hv : decodePV pvc = some v) (hh : h.toNat ≤ 8) :
    exec (.drawBitmap pvc x y w h bitmap) s =
      .next (s.paint v (bitmapPixels x.toNat y.toNat w.toNat h.toNat bitmap)) := by
  change execDrawBitmap pvc x y w h bitmap s = _
  rw [execDrawBitmap, if_pos hc, hv]
  exact if_neg (Nat.not_lt.2 hh)

/-- Settles O13: a bit of a plane, and F_ADDR, after the pixel writes of the bitmap. -/
theorem drawBitmapDrawsSetBits : Obligations.DrawBitmapDrawsSetBits := by
  intro s pvc x y w h bitmap hwell hc hpvc hh hp ha
  obtain ⟨v, hv, hprimary, haccent⟩ := decodePV_of_ne hpvc
  have hw : bitmap.length = w.toNat := beq_iff_eq.1 hwell
  refine ⟨_, exec_drawBitmap hc hv hh, State.paint_frame v _ s, fun i k hk hland => ?lands,
    fun i k hk hland => ?other, fun hmiss => ?misses, fun hmiss => ?inside⟩
  all_goals rw [← hw]
  case lands =>
    have hland' := exists_mem_bitmapPixels (Q := fun x y => s.lands x y i k).2 hland
    rw [State.getLsbD_paint_p v _ hp ha i hk, State.getLsbD_paint_a v _ hp ha i hk, if_pos hland', if_pos hland']
    exact ⟨hprimary, haccent⟩
  case other =>
    have hland' := mt (exists_mem_bitmapPixels (Q := fun x y => s.lands x y i k)).1 hland
    rw [State.getLsbD_paint_p v _ hp ha i hk, State.getLsbD_paint_a v _ hp ha i hk, if_neg hland', if_neg hland']
    exact ⟨rfl, rfl⟩
  case misses => exact (State.paint_fault v _ s).trans (if_pos (exists_mem_bitmapPixels.2 hmiss))
  case inside => exact (State.paint_fault v _ s).trans (if_neg (mt exists_mem_bitmapPixels.1 hmiss))

end Sys2Proof.Machine

/-! PROOFS. A whole render (R170 to R184): the run through each kind of action, and RENDER_SEQ as a list of them. -/

namespace Sys2Proof.Machine

/-- Some run leads from `s` to `t`. -/
def RunsTo (s t : State) : Prop := ∃ k, Sys2Proof.core.run k s = .next t

theorem RunsTo.trans {s t u : State} (h : RunsTo s t) (h' : RunsTo t u) : RunsTo s u := by
  obtain ⟨j, hj⟩ := h
  obtain ⟨k, hk⟩ := h'
  exact ⟨j + k, (run_add j k hj).trans hk⟩

theorem RunsTo.of_step {s t : State} (h : step s = .next t) : RunsTo s t := ⟨1, (run_one s).trans h⟩

/-- `s` after part of a render that ends between two actions: the events emitted, SEQ moved, and inputs of the timer and
the panel used up. -/
def State.advance (es : List Event) (q : Seq) (strobes : List Bool) (levels : List Level) (s : State) : State :=
  { s.emitAll es with seq := q, dly := false, sent := 0, strobes := strobes, levels := levels }

/-- What a render reads and does not itself write is the same after part of it (R173). -/
theorem State.advance_frame (es : List Event) (q : Seq) (strobes : List Bool) (levels : List Level) (s : State) :
    s.advance es q strobes levels = { s with
      seq := q, dly := false, sent := 0, strobes := strobes, levels := levels, trace := s.trace ++ es
      cs := (s.emitAll es).cs, dc := (s.emitAll es).dc, rst := (s.emitAll es).rst } := by
  rw [State.advance, State.emitAll_frame]

theorem State.advance_advance (s : State) (es es' : List Event) (q q' : Seq) (b b' : List Bool) (l l' : List Level) :
    (s.advance es q b l).advance es' q' b' l' = s.advance (es ++ es') q' b' l' := by
  have hemit (t : State) : ({ t with seq := q, dly := false, sent := 0, strobes := b, levels := l } : State).advance
      es' q' b' l' = t.advance es' q' b' l' := by
    induction es' generalizing t with
    | nil => rfl
    | cons e rest ih => exact ih (t.emit e)
  refine (hemit (s.emitAll es)).trans ?_
  rw [State.advance, State.advance, State.emitAll_append]

@[simp] theorem State.advance_params (es : List Event) (q : Seq) (b : List Bool) (l : List Level) (s : State) :
    (s.advance es q b l).params = s.params := by rw [State.advance_frame]

@[simp] theorem State.advance_renderSeq (es : List Event) (q : Seq) (b : List Bool) (l : List Level) (s : State) :
    (s.advance es q b l).renderSeq = s.renderSeq := by rw [State.advance_frame]; rfl

theorem State.advance_transaction (es : List Event) (q : Seq) (b : List Bool) (l : List Level) (s : State)
    (n : TxName) : (s.advance es q b l).transaction n = s.transaction n := by
  rw [State.advance_frame]; cases n <;> rfl

/-- The events of coming actions do not depend on how far the render is (R173). -/
@[simp] theorem State.advance_actionEvents (es : List Event) (q : Seq) (b : List Bool) (l : List Level) (s : State)
    (cleared : Level) (acts : List Action) (polls : List Nat) :
    (s.advance es q b l).actionEvents cleared acts polls = s.actionEvents cleared acts polls := by
  induction acts generalizing polls with
  | nil => rfl
  | cons act acts ih =>
    cases act with
    | pin | delay => simp only [State.actionEvents, ih]
    | tx n => simp only [State.actionEvents, ih, State.advance_transaction]
    | sync => cases polls <;> simp only [State.actionEvents, ih, State.advance_params]

/-- A running sequencer between two actions, with no reset to come and these inputs of the timer and the panel. -/
structure State.Between (s : State) (spc : Nat) (strobes : List Bool) (levels : List Level) : Prop where
  noReset : s.resetLine = []
  seq : s.seq = .run spc
  dly : s.dly = false
  sent : s.sent = 0
  strobes : s.strobes = strobes
  levels : s.levels = levels

theorem State.Between.advance {s : State} {spc : Nat} {b : List Bool} {l : List Level} (h : s.Between spc b l)
    (es : List Event) (spc' : Nat) (b' : List Bool) (l' : List Level) :
    (s.advance es (.run spc') b' l').Between spc' b' l' := by
  rw [State.advance_frame]
  exact ⟨h.noReset, rfl, rfl, rfl, rfl, rfl⟩

/-- With no reset to come and no delay pending, the step performs the action at the step pointer (R22). -/
theorem step_perform {s : State} {spc : Nat} {act : Action} (hr : s.resetLine = []) (hq : s.seq = .run spc)
    (hd : s.dly = false) (ha : s.renderSeq[spc]? = some act) : step s = .next (s.perform spc act) := by
  rw [step_running (congrArg (·.headD false) hr) hq, State.tickReset_of_nil hr, State.sequencerStep, hd, ha]
  rfl

theorem State.Between.step_eq {s : State} {spc : Nat} {b : List Bool} {l : List Level} {act : Action}
    (h : s.Between spc b l) (ha : s.renderSeq[spc]? = some act) : step s = .next (s.perform spc act) :=
  step_perform h.noReset h.seq h.dly ha

/-! ### Each kind of action -/

/-- A pending delay ends after as many steps as the timer leaves it unanswered, and one (R271). -/
theorem runsTo_released {s : State} {spc : Nat} (n : Nat) {b : List Bool} (hr : s.resetLine = [])
    (hq : s.seq = .run spc) (hd : s.dly = true) (hb : s.strobes = List.replicate n false ++ true :: b) :
    RunsTo s { s with strobes := b, dly := false, seq := .run (afterDelay spc (s.renderSeq[spc]?)) } := by
  have hr' : s.resetAsserted = false := congrArg (·.headD false) hr
  induction n generalizing s with
  | zero =>
    have hdraw := State.drawStrobe_cons hb
    have hstep := step_released hr' hq hd (congrArg Prod.fst hdraw)
    rw [hdraw, hr, List.tail_nil, ← hr] at hstep
    exact .of_step hstep
  | succ n ih =>
    have hdraw := State.drawStrobe_cons hb
    have hstep := step_held hr' hq hd (congrArg Prod.fst hdraw)
    rw [hdraw, hr, List.tail_nil, ← hr] at hstep
    exact (RunsTo.of_step hstep).trans (ih hr hq hd rfl hr')

/-- A Pin action (R171). -/
theorem State.Between.runsTo_pin {s : State} {spc : Nat} {b : List Bool} {l : List Level} (h : s.Between spc b l)
    {line : Line} {v : Level} (ha : s.renderSeq[spc]? = some (.pin line v)) :
    RunsTo s (s.advance [.pin line v] (.run (spc + 1)) b l) := by
  have hstep := h.step_eq ha
  obtain ⟨-, -, hd, -, rfl, rfl⟩ := h
  rw [State.advance, ← hd]
  exact .of_step hstep

/-- A Delay action, with the answer of the timer (R171, R271). -/
theorem State.Between.runsTo_delay {s : State} {spc n : Nat} {b : List Bool} {l : List Level}
    (h : s.Between spc (List.replicate n false ++ true :: b) l) {ms : Nat}
    (ha : s.renderSeq[spc]? = some (.delay ms)) : RunsTo s (s.advance [.delayReq ms] (.run (spc + 1)) b l) := by
  have hwait := runsTo_released (s := s.perform spc (.delay ms)) n h.noReset h.seq rfl h.strobes
  rw [show (s.perform spc (.delay ms)).renderSeq[spc]? = some (.delay ms) from ha] at hwait
  have hstep := h.step_eq ha
  obtain ⟨-, -, -, hs, -, rfl⟩ := h
  rw [State.advance, ← hs]
  exact (RunsTo.of_step hstep).trans hwait

/-- A transaction (R96, R171). -/
theorem State.Between.runsTo_tx {s : State} {spc : Nat} {b : List Bool} {l : List Level} (h : s.Between spc b l)
    {n : TxName} (ha : s.renderSeq[spc]? = some (.tx n)) :
    RunsTo s (s.advance (s.transaction n) (.run (spc + 1)) b l) := by
  have hrun := run_transaction h.seq h.dly h.sent ha (State.noResetFor_nil h.noReset _)
  obtain ⟨hr, -, hd, -, rfl, rfl⟩ := h
  rw [hr, List.drop_nil, State.emitAll_frame, ← hr] at hrun
  rw [State.advance_frame, ← hd]
  exact ⟨_, hrun⟩

/-- The last pass of a Sync: a cleared sample (R180). -/
theorem State.Between.runsTo_ready {s : State} {spc : Nat} {b : List Bool} {l : List Level} {cleared : Level}
    (h : s.Between spc b (cleared :: l)) (ha : s.renderSeq[spc]? = some .sync) (hc : cleared ≠ s.params.busyActive) :
    RunsTo s (s.advance [.busySample cleared] (.run (spc + 1)) b l) := by
  have hstep := h.step_eq ha
  rw [State.perform, State.syncPass, if_pos h.sent, State.sampleBusy, State.drawLevel_cons h.levels, if_neg hc] at hstep
  obtain ⟨-, -, hd, -, rfl, -⟩ := h
  rw [State.advance, ← hd]
  exact .of_step hstep

/-- A Sync after an asserted sample, before it requests its delay (R180). -/
def State.sampledBusy (l : List Level) (s : State) : State :=
  { s with trace := s.trace ++ [.busySample s.params.busyActive], levels := l, sent := 1 }

/-- A Sync in the delay after an asserted sample (R180). -/
def State.repolling (l : List Level) (s : State) : State :=
  { s with
    trace := s.trace ++ [.busySample s.params.busyActive] ++ [.delayReq 10], levels := l, dly := true, sent := 0 }

theorem State.Between.step_busy {s : State} {spc : Nat} {b : List Bool} {l : List Level}
    (h : s.Between spc b (s.params.busyActive :: l)) (ha : s.renderSeq[spc]? = some .sync) :
    step s = .next (s.sampledBusy l) := by
  rw [h.step_eq ha, State.perform, State.syncPass, if_pos h.sent, State.sampleBusy, State.drawLevel_cons h.levels,
    if_pos rfl]
  rfl

theorem State.Between.step_repoll {s : State} {spc : Nat} {b : List Bool} {l l' : List Level}
    (h : s.Between spc b l') (ha : s.renderSeq[spc]? = some .sync) :
    step (s.sampledBusy l) = .next (s.repolling l) := by
  rw [step_perform (s := s.sampledBusy l) h.noReset h.seq h.dly ha, State.perform, State.syncPass,
    if_neg (show (s.sampledBusy l).sent ≠ 0 from Nat.one_ne_zero)]
  rfl

/-- A pass of a Sync with an asserted sample, and the delay after it (R180). -/
theorem State.Between.runsTo_busy {s : State} {spc n : Nat} {b : List Bool} {l : List Level}
    (h : s.Between spc (List.replicate n false ++ true :: b) (s.params.busyActive :: l))
    (ha : s.renderSeq[spc]? = some .sync) :
    RunsTo s (s.advance [.busySample s.params.busyActive, .delayReq 10] (.run spc) b l) := by
  have hwait := runsTo_released (s := s.repolling l) n h.noReset h.seq rfl h.strobes
  rw [show (s.repolling l).renderSeq[spc]? = some .sync from ha] at hwait
  exact (RunsTo.of_step (h.step_busy ha)).trans ((RunsTo.of_step (h.step_repoll ha)).trans hwait)

theorem syncEvents_succ (asserted cleared : Level) (n : Nat) :
    syncEvents asserted cleared (n + 1) =
      [Event.busySample asserted, Event.delayReq 10] ++ syncEvents asserted cleared n := by
  simp [syncEvents, List.replicate_succ]

theorem answerStrobes_cons (n : Nat) (waits : List Nat) :
    answerStrobes (n :: waits) = List.replicate n false ++ true :: answerStrobes waits := by
  simp [answerStrobes]

theorem answerStrobes_append (waits waits' : List Nat) :
    answerStrobes (waits ++ waits') = answerStrobes waits ++ answerStrobes waits' := List.flatMap_append

theorem pollLevels_cons (asserted cleared : Level) (n : Nat) (polls : List Nat) :
    pollLevels asserted cleared (n :: polls) =
      List.replicate n asserted ++ cleared :: pollLevels asserted cleared polls := by
  simp [pollLevels]

/-- A whole Sync that finds the busy level asserted as often as the timer answers in it (R180). -/
theorem State.Between.runsTo_sync {s : State} {spc : Nat} {waits : List Nat} {b : List Bool} {l : List Level}
    {asserted cleared : Level} (hp : s.params.busyActive = asserted) (hc : cleared ≠ asserted)
    (h : s.Between spc (answerStrobes waits ++ b) (List.replicate waits.length asserted ++ cleared :: l))
    (ha : s.renderSeq[spc]? = some .sync) :
    RunsTo s (s.advance (syncEvents asserted cleared waits.length) (.run (spc + 1)) b l) := by
  induction waits generalizing s with
  | nil => exact h.runsTo_ready ha (hp ▸ hc)
  | cons n waits ih =>
    subst hp
    rw [answerStrobes_cons, List.append_assoc, List.cons_append] at h
    rw [List.length_cons, syncEvents_succ, ← State.advance_advance]
    exact (h.runsTo_busy ha).trans
      (ih (by rw [State.advance_params]) (h.advance _ spc _ _) (by rwa [State.advance_renderSeq]))

/-! ### RENDER_SEQ (R172, R184) -/

/-- A Delay action. -/
def Action.isDelay : Action → Bool
  | .delay _ => true
  | _ => false

/-- The end of a render (R22, R184). -/
theorem State.Between.runsTo_finished {s : State} {spc : Nat} {b : List Bool} {l : List Level} (h : s.Between spc b l)
    (ha : s.renderSeq[spc]? = none) : RunsTo s (s.advance [] .idle b l) := by
  obtain ⟨hr, hq, hd, hs, rfl, rfl⟩ := h
  have hstep : step s = .next (s.setSeq .idle) := by
    rw [step_running (congrArg (·.headD false) hr) hq, State.tickReset_of_nil hr, State.sequencerStep, hd, ha]
    rfl
  rw [State.advance, ← hd, ← hs]
  exact .of_step hstep

/-- An action, and then the others to the end of the render. -/
theorem RunsTo.advance_trans {s : State} {spc : Nat} {es : List Event} {b : List Bool} {l : List Level}
    {cleared : Level} {acts : List Action} {polls : List Nat} (hrun : RunsTo s (s.advance es (.run spc) b l))
    (hrest : RunsTo (s.advance es (.run spc) b l) ((s.advance es (.run spc) b l).advance
      ((s.advance es (.run spc) b l).actionEvents cleared acts polls) .idle [] [])) :
    RunsTo s (s.advance (es ++ s.actionEvents cleared acts polls) .idle [] []) := by
  rw [State.advance_actionEvents, State.advance_advance] at hrest
  exact hrun.trans hrest

/-- The actions from the step pointer to the end of the render, where `polls` says how often each Sync finds the busy
level asserted, and `waits` how late the timer answers each delay (R170, R184). -/
theorem State.Between.runsTo_idle {acts : List Action} {s : State} {spc : Nat} {asserted cleared : Level}
    {polls waits : List Nat} (hp : s.params.busyActive = asserted) (hc : cleared ≠ asserted)
    (h : s.Between spc (answerStrobes waits) (pollLevels asserted cleared polls))
    (hacts : s.renderSeq.drop spc = acts) (hpolls : polls.length = acts.count .sync)
    (hwaits : waits.length = acts.countP Action.isDelay + polls.sum) :
    RunsTo s (s.advance (s.actionEvents cleared acts polls) .idle [] []) := by
  induction acts generalizing s spc polls waits with
  | nil =>
    obtain rfl : polls = [] := List.eq_nil_of_length_eq_zero hpolls
    obtain rfl : waits = [] := List.eq_nil_of_length_eq_zero hwaits
    exact h.runsTo_finished (List.getElem?_eq_none (List.drop_eq_nil_iff.1 hacts))
  | cons act acts ih =>
    have ha : s.renderSeq[spc]? = some act := by rw [← List.head?_drop, hacts, List.head?_cons]
    have hacts' : s.renderSeq.drop (spc + 1) = acts := by rw [← List.tail_drop, hacts, List.tail_cons]
    have hnext {es : List Event} {polls waits : List Nat}
        (hrun : RunsTo s (s.advance es (.run (spc + 1)) (answerStrobes waits) (pollLevels asserted cleared polls)))
        (hpolls : polls.length = acts.count .sync)
        (hwaits : waits.length = acts.countP Action.isDelay + polls.sum) :
        RunsTo s (s.advance (es ++ s.actionEvents cleared acts polls) .idle [] []) :=
      hrun.advance_trans (ih (by rw [State.advance_params, hp]) (h.advance _ _ _ _)
        (by rw [State.advance_renderSeq, hacts']) hpolls hwaits)
    rw [List.count_cons] at hpolls
    rw [List.countP_cons] at hwaits
    cases act with
    | pin line v => exact hnext (h.runsTo_pin ha) hpolls (by simpa [Action.isDelay] using hwaits)
    | tx n => exact hnext (h.runsTo_tx ha) hpolls (by simpa [Action.isDelay] using hwaits)
    | delay ms =>
      simp only [Action.isDelay, if_true] at hwaits
      obtain ⟨n, waits, rfl⟩ : ∃ n waits', waits = n :: waits' := List.exists_cons_of_length_pos (by omega)
      rw [answerStrobes_cons] at h
      exact hnext (h.runsTo_delay ha) hpolls (by rw [List.length_cons] at hwaits; omega)
    | sync =>
      obtain ⟨n, polls, rfl⟩ : ∃ n polls', polls = n :: polls' :=
        List.exists_cons_of_length_pos (hpolls ▸ Nat.succ_pos _)
      simp only [Action.isDelay, List.sum_cons] at hwaits
      obtain ⟨waits, waits', rfl, rfl⟩ : ∃ ws ws', waits = ws ++ ws' ∧ ws.length = n :=
        ⟨waits.take n, waits.drop n, (List.take_append_drop n waits).symm, List.length_take_of_le (by omega)⟩
      rw [answerStrobes_append, pollLevels_cons] at h
      have hsync := h.runsTo_sync hp hc ha
      have hevents : s.actionEvents cleared (.sync :: acts) (waits.length :: polls) =
          syncEvents asserted cleared waits.length ++ s.actionEvents cleared acts polls := by
        rw [State.actionEvents, hp]
      rw [hevents]
      refine hnext hsync (Nat.succ.inj hpolls) ?_
      simp only [List.length_append, Bool.false_eq_true, if_false] at hwaits
      omega

/-! ### The latches after a render (R34, R95) -/

theorem State.actionEvents_append (s : State) (cleared : Level) (acts acts' : List Action) (polls : List Nat) :
    s.actionEvents cleared (acts ++ acts') polls =
      s.actionEvents cleared acts polls ++ s.actionEvents cleared acts' (polls.drop (acts.count .sync)) := by
  induction acts generalizing polls with
  | nil => rfl
  | cons act acts ih =>
    cases act with
    | pin | delay => exact congrArg (_ :: ·) (ih polls)
    | tx n => exact (congrArg (_ ++ ·) (ih polls)).trans (List.append_assoc _ _ _).symm
    | sync =>
      rw [List.count_cons_self]
      cases polls with
      | nil =>
        have h := ih []
        rw [List.drop_nil] at h ⊢
        exact (congrArg (_ ++ ·) h).trans (List.append_assoc _ _ _).symm
      | cons n polls => exact (congrArg (_ ++ ·) (ih polls)).trans (List.append_assoc _ _ _).symm

theorem State.emitAll_syncEvents_rst (asserted cleared : Level) (n : Nat) (s : State) :
    (s.emitAll (syncEvents asserted cleared n)).rst = s.rst := by
  induction n generalizing s with
  | zero => rfl
  | succ n ih => rw [syncEvents_succ, State.emitAll_append]; exact ih _

/-- Only a Pin action drives RST (R95, R96). -/
theorem State.emitAll_actionEvents_rst {acts : List Action} (h : ∀ line v, Action.pin line v ∉ acts) (s t : State)
    (cleared : Level) (polls : List Nat) : (t.emitAll (s.actionEvents cleared acts polls)).rst = t.rst := by
  induction acts generalizing t polls with
  | nil => rfl
  | cons act acts ih =>
    have hrest := ih fun line v hmem => h line v (List.mem_cons_of_mem _ hmem)
    cases act with
    | pin line v => exact absurd List.mem_cons_self (h line v)
    | delay ms => exact hrest (t.emit (.delayReq ms)) polls
    | tx n =>
      rw [State.actionEvents, State.emitAll_append, hrest, State.transaction, State.emitAll_txEvents]
    | sync =>
      cases polls <;> rw [State.actionEvents, State.emitAll_append, hrest, State.emitAll_syncEvents_rst]

theorem pin_not_mem_svActions (m : ColorMode) (line : Line) (v : Level) : Action.pin line v ∉ svActions m := by
  cases m <;> simp [svActions]

theorem pin_not_mem_borderActions (b : PixelValue) (m : ColorMode) (line : Line) (v : Level) :
    Action.pin line v ∉ borderActions b m := by
  cases b <;> cases m <;> simp [borderActions]

/-- RENDER_SEQ pulses RST and drives no line outside a transaction after that; its last transaction has no data (R172,
R174). -/
theorem renderSeq_eq (m : ColorMode) (b : PixelValue) :
    ∃ acts : List Action,
      renderSeq m b = [Action.pin .rst .low, Action.delay 500, Action.pin .rst .high, Action.delay 500] ++
        (acts ++ [Action.tx .masterActivate]) ∧ ∀ line v, Action.pin line v ∉ acts := by
  refine ⟨(renderSteps m b).tail.dropLast.flatMap Prod.snd ++ [Action.tx .activationCfg],
    by simp [renderSeq, renderSteps], fun line v => ?_⟩
  simp [renderSteps, pin_not_mem_svActions, pin_not_mem_borderActions]

/-- A render leaves CS and RST high and DC low. -/
theorem State.emitAll_render (s : State) (cleared : Level) (polls : List Nat) :
    (s.emitAll (s.actionEvents cleared s.renderSeq polls)).cs = .high ∧
      (s.emitAll (s.actionEvents cleared s.renderSeq polls)).dc = .low ∧
      (s.emitAll (s.actionEvents cleared s.renderSeq polls)).rst = .high := by
  obtain ⟨acts, heq, hpin⟩ := renderSeq_eq s.mode s.border
  have hlast (polls : List Nat) : s.actionEvents cleared [.tx .masterActivate] polls =
      txEvents (commandByte s.params.rom .masterActivate) [] := List.append_nil _
  rw [State.renderSeq, heq, State.actionEvents_append, State.actionEvents_append, State.emitAll_append,
    State.emitAll_append, hlast, State.emitAll_txEvents]
  exact ⟨rfl, rfl, State.emitAll_actionEvents_rst hpin _ _ _ _⟩

/-! ### The obligation -/

theorem count_sync_renderSeq (m : ColorMode) (b : PixelValue) : (renderSeq m b).count .sync = 3 := by
  rw [count_renderSeq, count_svActions_of_ne m (by simp), count_borderActions_of_ne b m (by simp)]
  rfl

theorem countP_isDelay_renderSeq (m : ColorMode) (b : PixelValue) : (renderSeq m b).countP Action.isDelay = 3 := by
  cases m <;> cases b <;> rfl

/-- Settles O52: the actions of RENDER_SEQ one after the other, and the latches that they leave. -/
theorem renderEmitsItsSequence : Obligations.RenderEmitsItsSequence := by
  intro s cleared n1 n2 n3 waits hr hq hd hs hc hl hwaits hb
  have hbetween : s.Between 0 (answerStrobes waits) (pollLevels s.params.busyActive cleared [n1, n2, n3]) :=
    ⟨hr, hq, hd, hs, hb, hl⟩
  obtain ⟨k, hrun⟩ := hbetween.runsTo_idle rfl hc List.drop_zero (count_sync_renderSeq _ _).symm (by
    rw [State.renderSeq, countP_isDelay_renderSeq, hwaits]
    simp
    omega)
  obtain ⟨hcs, hdc, hrst⟩ := s.emitAll_render cleared [n1, n2, n3]
  rw [State.advance_frame, hcs, hdc, hrst, ← hd, ← hs] at hrun
  exact ⟨k, hrun⟩

end Sys2Proof.Machine

/-! PROOFS. The translator in plain arithmetic, WritePixel after WritePixel, and SET_PIXEL and SET_PIXELS in full
(R122 to R135, R140). -/

namespace Sys2Proof.Machine

/-! ### The translator (R123, R124, R128) -/

/-- The translator's two checks as one condition (R123, R124). -/
theorem translator_eq_ite (v : Variant) (g : Geometry) (x y : Nat) :
    translator v g x y =
      if 0 ≤ ramCol v g x y ∧ byteIndex g (ramRow v x y) (ramCol v g x y).toNat < planeLength g then
        some (byteIndex g (ramRow v x y) (ramCol v g x y).toNat, bitIndex (ramCol v g x y).toNat)
      else none := by
  split
  · next h => exact translator_eq_some.2 ⟨h.1, rfl, rfl, h.2⟩
  · next h => exact translator_eq_none.2 (by omega)

/-- The limits of R6 that the translator's arithmetic needs: whole bytes in a row, and at least one row. -/
theorem Geometry.cols_rows_of_valid {g : Geometry} (h : g.valid = true) : g.cols % 8 = 0 ∧ 1 ≤ g.rows := by
  simp only [Geometry.valid, Bool.and_eq_true, Nat.ble_eq, beq_iff_eq] at h
  obtain ⟨⟨⟨⟨⟨⟨⟨⟨hcols, -⟩, -⟩, -⟩, -⟩, -⟩, -⟩, hrows⟩, -⟩ := h
  exact ⟨hcols, hrows⟩

theorem translator_matching {g : Geometry} (h : g.valid = true) (x y : Nat) :
    translator .matching g x y =
      if x / 8 + 1 + y * (g.cols / 8) < g.cols / 8 * g.rows then
        some (x / 8 + 1 + y * (g.cols / 8), 7 - x % 8) else none := by
  have hcol : ramCol .matching g x y = x := rfl
  have hrow : ramRow .matching x y = y := rfl
  rw [translator_eq_ite, hcol, hrow, Int.toNat_natCast, byteIndex, bitIndex, planeLength,
    bytesPerRow_eq (Geometry.cols_rows_of_valid h).2]
  exact if_congr (and_iff_right (Int.natCast_nonneg x)) rfl rfl

theorem translator_rotated {g : Geometry} (h : g.valid = true) (x y : Nat) :
    translator .rotated g x y =
      if y < g.width ∧ (g.width - 1 - y) / 8 + 1 + x * (g.cols / 8) < g.cols / 8 * g.rows then
        some ((g.width - 1 - y) / 8 + 1 + x * (g.cols / 8), 7 - (g.width - 1 - y) % 8) else none := by
  have hcol : ramCol .rotated g x y = (g.width : Int) - 1 - y := rfl
  have hrow : ramRow .rotated x y = x := rfl
  have hnat : ((g.width : Int) - 1 - y).toNat = g.width - 1 - y := by omega
  have hneg : 0 ≤ (g.width : Int) - 1 - y ↔ y < g.width := by omega
  rw [translator_eq_ite, hcol, hrow, hnat, byteIndex, bitIndex, planeLength,
    bytesPerRow_eq (Geometry.cols_rows_of_valid h).2]
  exact if_congr (and_congr_left' hneg) rfl rfl

/-- Settles O7, variant by variant. -/
theorem translatorFormula : Obligations.TranslatorFormula :=
  fun _ x y h => ⟨translator_matching h x y, translator_rotated h x y⟩

/-- Settles O9: one row is C/8 bytes, so x = W = C moves the byte index as y + 1 does. -/
theorem rowEndAliasesNextRow : Obligations.RowEndAliasesNextRow := by
  intro g y hvalid hwidth hy
  obtain ⟨hcols, -⟩ := Geometry.cols_rows_of_valid hvalid
  have hnext : 0 / 8 + 1 + (y + 1) * (g.cols / 8) = g.cols / 8 + 1 + y * (g.cols / 8) := by
    rw [Nat.succ_mul]
    omega
  refine ⟨inBounds_iff.2 ⟨le_rfl, hy⟩, fun hidx => ?lands, ?sameBit⟩
  case lands => rw [translator_matching hvalid, hwidth, if_pos hidx, hcols]
  case sameBit => rw [translator_matching hvalid, translator_matching hvalid, hwidth, hcols, hnext]

/-! ### WritePixel after WritePixel (R127) -/

/-- Two canonical memories with the same bits are equal. -/
theorem Memory.ext_bits {m m' : Memory} (hm : m.wf = true) (hm' : m'.wf = true)
    (h : ∀ i k, k < 8 → (m.read i).getLsbD k = (m'.read i).getLsbD k) : m = m' :=
  Memory.ext_read hm hm' fun i => BitVec.eq_of_getLsbD_eq (h i)

theorem Memory.writeBit_writeBit {m : Memory} (hm : m.wf = true) {b : Nat} (hb : b ≤ 7) (i : Nat) (on on' : Bool) :
    (m.writeBit i b on).writeBit i b on' = m.writeBit i b on' := by
  have hon := Memory.wf_writeBit hm i b on
  refine Memory.ext_bits (Memory.wf_writeBit hon i b on') (Memory.wf_writeBit hm i b on') fun j k hk => ?_
  simp only [Memory.getLsbD_read_writeBit hon hb, Memory.getLsbD_read_writeBit hm hb, hk]
  split <;> rfl

theorem State.raise_raise (k : FaultKind) (s : State) : (s.raise k).raise k = s.raise k := by
  unfold State.raise
  rw [FaultBits.set_set]

/-- R127 (b), (c): of two writes at one coordinate, the last is the one that counts. -/
theorem State.writePixel_writePixel {s : State} (hp : s.p.wf = true) (ha : s.a.wf = true) (v v' : PixelValue)
    (x y : Nat) : (s.writePixel v x y).writePixel v' x y = s.writePixel v' x y := by
  rcases hin : inBounds s.geometry x y with _ | _
  case false => rw [State.writePixel_ignored hin]
  case true =>
    rcases ht : translator s.var s.geometry x y with _ | ⟨i, b⟩
    case none =>
      rw [State.writePixel_addr hin ht, State.writePixel_addr hin ht]
      exact (State.writePixel_addr (s := s.flag) hin ht).trans (State.raise_raise .addr s)
    case some =>
      have hb := (translator_bounds ht).2.2
      rw [State.writePixel_hit hin ht, State.writePixel_hit hin ht,
        State.writePixel_hit (s := s.writePlanes i b v) hin ht]
      simp only [State.writePlanes, Memory.writeBit_writeBit hp hb, Memory.writeBit_writeBit ha hb]

/-- R127 (d): what a list of pixel writes does depends only on which pixels stand in it. -/
theorem State.paint_congr {s : State} (hp : s.p.wf = true) (ha : s.a.wf = true) (v : PixelValue)
    {ps qs : List (Nat × Nat)} (h : ∀ q, q ∈ ps ↔ q ∈ qs) : s.paint v ps = s.paint v qs := by
  obtain ⟨hps, hps'⟩ := State.paint_wf v ps hp ha
  obtain ⟨hqs, hqs'⟩ := State.paint_wf v qs hp ha
  classical
  have hex (Q : Nat × Nat → Prop) : (∃ q ∈ ps, Q q) ↔ ∃ q ∈ qs, Q q := exists_congr fun q => and_congr_left' (h q)
  refine State.eq_of_planes (State.paint_frame v ps s) (State.paint_frame v qs s)
    (Memory.ext_bits hps hqs fun i k hk => ?primary) (Memory.ext_bits hps' hqs' fun i k hk => ?accent) ?fault
  case primary =>
    rw [State.getLsbD_paint_p v ps hp ha i hk, State.getLsbD_paint_p v qs hp ha i hk, if_congr (hex _) rfl rfl]
  case accent =>
    rw [State.getLsbD_paint_a v ps hp ha i hk, State.getLsbD_paint_a v qs hp ha i hk, if_congr (hex _) rfl rfl]
  case fault => rw [State.paint_fault, State.paint_fault, if_congr (hex _) rfl rfl]

/-- Settles O15: permutations have the same members. -/
theorem writeOrderIsInvisible : Obligations.WriteOrderIsInvisible :=
  fun _ v _ _ hp ha hperm => State.paint_congr hp ha v fun _ => hperm.mem_iff

/-! ### SET_PIXEL (R122, R127, R130) -/

/-- SET_PIXEL with a legal PixelValue: one pixel write, or F_NOT_CONFIGURED where there is no Display (R130). -/
theorem exec_setPixel {pvc : BitVec 2} {v : PixelValue} (hv : decodePV pvc = some v) (x y : BitVec 16) (s : State) :
    exec (.setPixel pvc x y) s =
      .next (if s.cfg then s.writePixel v x.toNat y.toNat else s.raise .notConfigured) := by
  change execSetPixel pvc x y s = _
  rw [execSetPixel, hv]
  split <;> rfl

/-- Settles O10, by what WritePixel does in each of its branches. -/
theorem boundsCheckIsGreaterThan : Obligations.BoundsCheckIsGreaterThan := by
  intro s pvc v x y hc hcode
  have hv : decodePV pvc = some v := by rcases hcode with ⟨rfl, rfl⟩ | ⟨rfl, rfl⟩ | ⟨rfl, rfl⟩ <;> rfl
  rw [exec_setPixel hv, if_pos hc]
  refine ⟨fun hout => ?ignored, fun hin => ⟨fun i b ht => ?hit, fun ht => ?addr⟩⟩
  case ignored => rw [State.writePixel_ignored (Bool.eq_false_iff.2 (mt inBounds_iff.1 hout))]
  case hit => rw [State.writePixel_hit (inBounds_iff.2 hin) ht]
  case addr =>
    rw [State.writePixel_addr (inBounds_iff.2 hin) ht]
    rfl

/-- Settles O14: with a Display by R127, without one because both commands raise the same fault. -/
theorem lastPixelWriteWins : Obligations.LastPixelWriteWins := by
  intro s t pvc pvc' x y hp ha hpvc hpvc' h
  obtain ⟨v, hv, -⟩ := decodePV_of_ne hpvc
  obtain ⟨v', hv', -⟩ := decodePV_of_ne hpvc'
  rw [exec_setPixel hv] at h
  cases h
  rw [exec_setPixel hv', exec_setPixel hv', exec_setPixel hv]
  rcases hc : s.cfg with _ | _
  case false => simp [hc, State.raise_raise]
  case true => simp [hc, State.writePixel_writePixel hp ha]

/-! ### What a list of pixel writes leaves (R125, R126) -/

/-- A pixel command that paints the pixels `ps` writes the pair of its value exactly at the bits they land on, and flags
F_ADDR exactly where one of them misses. -/
theorem State.paint_exact {s : State} (hp : s.p.wf = true) (ha : s.a.wf = true) (v : PixelValue)
    (ps : List (Nat × Nat)) {hits : Nat → Nat → Prop} {misses : Prop}
    (hhits : ∀ i k, (∃ q ∈ ps, s.lands q.1 q.2 i k) ↔ hits i k) (hmisses : (∃ q ∈ ps, s.misses q.1 q.2) ↔ misses) :
    s.paint v ps = { s with p := (s.paint v ps).p, a := (s.paint v ps).a, fault := (s.paint v ps).fault } ∧
      (∀ i k, k < 8 → hits i k →
        ((s.paint v ps).p.read i).getLsbD k = encPrimary v ∧ ((s.paint v ps).a.read i).getLsbD k = encAccent v) ∧
      (∀ i k, k < 8 → ¬hits i k →
        ((s.paint v ps).p.read i).getLsbD k = (s.p.read i).getLsbD k ∧
          ((s.paint v ps).a.read i).getLsbD k = (s.a.read i).getLsbD k) ∧
      (misses → (s.paint v ps).fault = { s.fault with addr := true }) ∧
      (¬misses → (s.paint v ps).fault = s.fault) := by
  refine ⟨State.paint_frame v ps s, fun i k hk hhit => ?lands, fun i k hk hhit => ?other, fun hmiss => ?misses,
    fun hmiss => ?inside⟩
  case lands =>
    have hland := (hhits i k).2 hhit
    rw [State.getLsbD_paint_p v ps hp ha i hk, State.getLsbD_paint_a v ps hp ha i hk, if_pos hland, if_pos hland]
    exact ⟨rfl, rfl⟩
  case other =>
    have hland := mt (hhits i k).1 hhit
    rw [State.getLsbD_paint_p v ps hp ha i hk, State.getLsbD_paint_a v ps hp ha i hk, if_neg hland, if_neg hland]
    exact ⟨rfl, rfl⟩
  case misses => exact (State.paint_fault v ps s).trans (if_pos (hmisses.2 hmiss))
  case inside => exact (State.paint_fault v ps s).trans (if_neg (mt hmisses.1 hmiss))

/-- Settles O11: a list of one pixel. -/
theorem setPixelWritesOnePair : Obligations.SetPixelWritesOnePair := by
  intro s pvc x y hc hpvc hp ha
  obtain ⟨v, hv, hprimary, haccent⟩ := decodePV_of_ne hpvc
  rw [← hprimary, ← haccent, exec_setPixel hv, if_pos hc]
  exact ⟨_, rfl, State.paint_exact hp ha v [(x.toNat, y.toNat)] (by simp) (by simp)⟩

/-! ### SET_PIXELS (R135) -/

/-- The pixels of a rectangle are its columns by its rows, with no wrap (R135). -/
theorem exists_mem_rectanglePixels {x y w h : Nat} {Q : Nat → Nat → Prop} :
    (∃ q ∈ rectanglePixels x y w h, Q q.1 q.2) ↔ ∃ m n, m < w ∧ n < h ∧ Q (x + m) (y + n) := by
  simp only [rectanglePixels, List.mem_flatMap, List.mem_map, List.mem_range]
  constructor
  · rintro ⟨_, ⟨m, hm, n, hn, rfl⟩, hq⟩
    exact ⟨m, n, hm, hn, hq⟩
  · rintro ⟨m, n, hm, hn, hq⟩
    exact ⟨_, ⟨m, hm, n, hn, rfl⟩, hq⟩

/-- SET_PIXELS with a Display and a legal PixelValue writes its rectangle (R135). -/
theorem exec_setPixels {s : State} {pvc : BitVec 2} {v : PixelValue} (hc : s.cfg = true) (hv : decodePV pvc = some v)
    (x y w h : BitVec 16) :
    exec (.setPixels pvc x y w h) s = .next (s.paint v (rectanglePixels x.toNat y.toNat w.toNat h.toNat)) := by
  change execSetPixels pvc x y w h s = _
  rw [execSetPixels, if_pos hc, hv]

/-- Settles O12: the list of the rectangle's pixels. -/
theorem setPixelsFillsRectangle : Obligations.SetPixelsFillsRectangle := by
  intro s pvc x y w h hc hpvc hp ha
  obtain ⟨v, hv, hprimary, haccent⟩ := decodePV_of_ne hpvc
  rw [← hprimary, ← haccent]
  exact ⟨_, exec_setPixels hc hv x y w h, State.paint_exact hp ha v _
    (fun i k => exists_mem_rectanglePixels (Q := fun x y => s.lands x y i k)) exists_mem_rectanglePixels⟩

/-! ### DRAW_BITMAP of one bit (R140) -/

/-- A bitmap of one column with bit `k` alone set draws one pixel (R90, R140). -/
theorem bitmapPixels_oneBit (x y : Nat) {h k : Nat} (hk : k < h) (hh : h ≤ 8) :
    bitmapPixels x y 1 h [1#8 <<< k] = [(x, y + k)] := by
  have hbit : bitmapBit [1#8 <<< k] 0 = fun j => decide (j = k) := funext fun j => getLsbD_mask (by omega)
  have hrows : (List.range h).filter (bitmapBit [1#8 <<< k] 0) = [k] := by
    rw [hbit, List.filter_eq, List.count_range, if_pos hk]
    rfl
  change (((List.range h).filter (bitmapBit [1#8 <<< k] 0)).map fun r => (x + 0, y + r)) ++ [] = _
  rw [hrows]
  rfl

/-- Settles O16: both commands judge CFG and the PixelValue alike, and then write the same pixel. -/
theorem oneBitBitmapIsSetPixel : Obligations.OneBitBitmapIsSetPixel := by
  intro s pvc x y h k hk hh hy
  have hrow : (y + BitVec.ofNat 16 k).toNat = y.toNat + k := by
    rw [BitVec.toNat_add, BitVec.toNat_ofNat]
    omega
  by_cases hc : s.cfg = true
  case neg => exact (if_neg hc).trans (if_neg hc).symm
  case pos =>
    rcases hv : decodePV pvc with _ | v
    case none =>
      change execDrawBitmap pvc x y 1#16 h [1#8 <<< k] s = execSetPixel pvc x (y + BitVec.ofNat 16 k) s
      rw [execDrawBitmap, execSetPixel, if_pos hc, if_pos hc, hv]
    case some =>
      rw [exec_drawBitmap hc hv hh, exec_setPixel hv, if_pos hc, hrow, BitVec.toNat_ofNat,
        bitmapPixels_oneBit _ _ hk hh]
      rfl

end Sys2Proof.Machine

/-! PROOFS. RENDER_SEQ in every mode and border: its actions and their counts, and what its selectors send (R172,
R175 to R177, R186). -/

namespace Sys2Proof.Machine

/-! ### The optional commands (R175, R177) -/

theorem svActions_eq (m : ColorMode) : svActions m = if m = .bw then [] else [.tx .sourceVoltage] := by
  cases m <;> rfl

theorem borderActions_eq (b : PixelValue) (m : ColorMode) :
    borderActions b m = if b = .accent ∧ m = .bw then [] else [.tx .border] := by
  cases b <;> cases m <;> rfl

/-- Settles O40: the fourteen steps of R172, with each selector as the condition of its rule. -/
theorem renderSequenceOrder : Obligations.RenderSequenceOrder := by
  intro m b
  rw [← svActions_eq, ← borderActions_eq]
  simp only [renderSeq, renderSteps, List.flatMap_cons, List.flatMap_nil, List.flatten_cons, List.flatten_nil,
    List.append_assoc]

/-! ### Counting in RENDER_SEQ (R186) -/

/-- But for its order, RENDER_SEQ is that of (BW, ACCENT), which leaves out both optional commands, and the actions of
the selectors. -/
theorem renderSeq_perm (m : ColorMode) (b : PixelValue) :
    (renderSeq m b).Perm (renderSeq .bw .accent ++ svActions m ++ borderActions b m) :=
  List.perm_iff_count.2 fun act => by rw [count_renderSeq, List.count_append, List.count_append]

theorem count_renderSeq_of_ne (m : ColorMode) (b : PixelValue) {act : Action} (hsv : act ≠ .tx .sourceVoltage)
    (hborder : act ≠ .tx .border) : (renderSeq m b).count act = (renderSeq .bw .accent).count act := by
  rw [count_renderSeq, count_svActions_of_ne m hsv, count_borderActions_of_ne b m hborder, Nat.add_zero]

theorem count_sourceVoltage_renderSeq (m : ColorMode) (b : PixelValue) :
    (renderSeq m b).count (.tx .sourceVoltage) = if m = .bw then 0 else 1 := by
  have hbase : (renderSeq .bw .accent).count (.tx .sourceVoltage) = 0 := rfl
  rw [count_renderSeq, count_borderActions_of_ne b m (by simp), hbase, svActions_eq]
  split <;> rfl

theorem count_border_renderSeq (m : ColorMode) (b : PixelValue) :
    (renderSeq m b).count (.tx .border) = if b = .accent ∧ m = .bw then 0 else 1 := by
  have hbase : (renderSeq .bw .accent).count (.tx .border) = 0 := rfl
  rw [count_renderSeq, count_svActions_of_ne m (by simp), hbase, borderActions_eq]
  split <;> rfl

/-- What is no transaction is the same in every RENDER_SEQ, in the same order: the selectors leave out transactions
alone. -/
theorem filterMap_renderSeq_of_tx_eq_none {β : Type} {f : Action → Option β} (h : ∀ n, f (.tx n) = none)
    (m : ColorMode) (b : PixelValue) : (renderSeq m b).filterMap f = (renderSeq .bw .accent).filterMap f := by
  have hsv (m : ColorMode) : (svActions m).filterMap f = [] := by
    rw [svActions_eq]
    split <;> simp [h]
  have hborder (b : PixelValue) (m : ColorMode) : (borderActions b m).filterMap f = [] := by
    rw [borderActions_eq]
    split <;> simp [h]
  simp only [renderSeq, renderSteps, List.flatMap_cons, List.flatMap_nil, List.filterMap_append, hsv, hborder]

/-! ### The transactions of a render (R186) -/

/-- The transaction that an action performs, if it is one. -/
def Action.txName : Action → Option TxName
  | .tx n => some n
  | .pin _ _ => none
  | .delay _ => none
  | .sync => none

theorem Action.txName_eq_some_iff (act : Action) (n : TxName) : act.txName = some n ↔ act = .tx n := by
  cases act <;> simp [txName]

/-- The transactions of RENDER_SEQ, in order. -/
def renderTxs (m : ColorMode) (b : PixelValue) : List TxName := (renderSeq m b).filterMap Action.txName

theorem count_renderTxs (m : ColorMode) (b : PixelValue) (n : TxName) :
    (renderTxs m b).count n = (renderSeq m b).count (.tx n) := by
  rw [renderTxs, List.count_filterMap, List.count]
  congr 1
  funext act
  rw [Bool.eq_iff_iff, beq_iff_eq, beq_iff_eq, Action.txName_eq_some_iff]

theorem length_renderTxs (m : ColorMode) (b : PixelValue) :
    (renderTxs m b).length = 19 + (if m = .bw then 0 else 1) + (if b = .accent ∧ m = .bw then 0 else 1) := by
  have hbase : (renderTxs .bw .accent).length = 19 := rfl
  have hsv : ((svActions m).filterMap Action.txName).length = if m = .bw then 0 else 1 := by
    rw [svActions_eq]
    split <;> rfl
  have hborder :
      ((borderActions b m).filterMap Action.txName).length = if b = .accent ∧ m = .bw then 0 else 1 := by
    rw [borderActions_eq]
    split <;> rfl
  rw [renderTxs, ((renderSeq_perm m b).filterMap Action.txName).length_eq, List.filterMap_append,
    List.filterMap_append, List.length_append, List.length_append, hsv, hborder, ← renderTxs, hbase]

/-- A render begins with SW_RESET and ends with ACTIVATION_CFG and MASTER_ACTIVATE (R172, R184). -/
theorem renderTxs_eq (m : ColorMode) (b : PixelValue) :
    ∃ ns : List TxName, renderTxs m b = .swReset :: ns ++ [.activationCfg, .masterActivate] :=
  ⟨((renderSteps m b).tail.tail.dropLast.flatMap Prod.snd).filterMap Action.txName,
    by simp [renderTxs, renderSeq, renderSteps, Action.txName, List.filterMap_cons]⟩

/-- Settles O41: the counts by name, what is no transaction, and the two ends of the sequence. -/
theorem renderCounts : Obligations.RenderCounts := by
  intro s txs
  have htxs : txs = renderTxs s.mode s.border := List.filterMap_congr fun act _ => by cases act <;> rfl
  obtain ⟨ns, hends⟩ := renderTxs_eq s.mode s.border
  refine ⟨?length, fun n => ?count, count_sync_renderSeq s.mode s.border, ?delays, ?pins, ?first, rfl, ?last, rfl,
    rfl, rfl, rfl⟩
  case length => rw [htxs, length_renderTxs]
  case count =>
    rw [htxs, count_renderTxs]
    cases n with
    | sourceVoltage => exact count_sourceVoltage_renderSeq s.mode s.border
    | border => exact count_border_renderSeq s.mode s.border
    | _ => exact count_renderSeq_of_ne s.mode s.border (by simp) (by simp)
  case delays => exact filterMap_renderSeq_of_tx_eq_none (fun _ => rfl) s.mode s.border
  case pins => exact filterMap_renderSeq_of_tx_eq_none (fun _ => rfl) s.mode s.border
  case first => rw [htxs, hends]; rfl
  case last => rw [htxs, hends]; exact List.drop_left' (by simp)

/-! ### What the selectors send (R175 to R177) -/

/-- R175, R177: the constraints on what the selectors choose from. -/
theorem selectors_ne_of_rom_valid {r : Rom} (h : r.valid = true) :
    r.svRed ≠ r.svYellow ∧ r.borderAccentRed ≠ r.borderAccentYellow := by
  simp only [Rom.valid, Bool.and_eq_true, decide_eq_true_eq] at h
  obtain ⟨⟨-, hsv⟩, hborder⟩ := h
  exact ⟨hsv, hborder⟩

/-- Settles O44. -/
theorem colorModeSelectors : Obligations.ColorModeSelectors := by
  intro s
  have hsv {m : ColorMode} (hm : s.mode = m) : s.txPayload .sourceVoltage = sourceVoltage s.params.rom m := by
    rw [← hm]
    rfl
  have hlut {m : ColorMode} (hm : s.mode = m) : s.txPayload .writeLut = lutBytes s.params.rom m := by
    rw [← hm]
    rfl
  have hborder {b : PixelValue} (hb : s.border = b) :
      s.txPayload .border = (borderByte s.params.rom b s.mode).toList := by
    rw [← hb]
    rfl
  exact ⟨fun hm => ⟨hsv hm, hlut hm⟩, fun hm => ⟨hsv hm, hlut hm⟩, hlut,
    count_sourceVoltage_renderSeq s.mode s.border, count_renderSeq_of_fixedCode s.mode s.border rfl, hborder, hborder,
    fun hb hm => (hborder hb).trans (by rw [hm]; rfl), fun hb hm => (hborder hb).trans (by rw [hm]; rfl),
    count_border_renderSeq s.mode s.border, fun hv => selectors_ne_of_rom_valid (rom_valid_of_params_valid hv)⟩

end Sys2Proof.Machine

/-! PROOFS. Every step goes on (R239); the reset pulse at the start of a render (R174); a Sync step by step, and a
render that an asserted busy line holds in one (R180, R183). -/

namespace Sys2Proof.Machine

/-- Settles O32. -/
theorem everyStepGoesOn : Obligations.EveryStepGoesOn := step_next

/-! ### The reset pulse (R174) -/

/-- A Pin action and the Delay action after it (R171). -/
theorem State.Between.runsTo_pin_delay {s : State} {spc n : Nat} {b : List Bool} {l : List Level} {line : Line}
    {v : Level} {ms : Nat} (h : s.Between spc (List.replicate n false ++ true :: b) l)
    (hpin : s.renderSeq[spc]? = some (.pin line v)) (hdelay : s.renderSeq[spc + 1]? = some (.delay ms)) :
    RunsTo s (s.advance [.pin line v, .delayReq ms] (.run (spc + 2)) b l) := by
  have hwait := (h.advance [.pin line v] (spc + 1) (List.replicate n false ++ true :: b) l).runsTo_delay
    (by rwa [State.advance_renderSeq])
  rw [State.advance_advance] at hwait
  exact (h.runsTo_pin hpin).trans hwait

/-- Settles O48: RST low and a delay, then RST high and a delay. -/
theorem hardwareResetPulse : Obligations.HardwareResetPulse := by
  intro s wait1 wait2 rest hr hq hd hb hs
  have hanswers : answerStrobes [wait1, wait2] ++ rest =
      List.replicate wait1 false ++ true :: (List.replicate wait2 false ++ true :: rest) := by
    simp [answerStrobes]
  have hbetween : s.Between 0 _ s.levels := ⟨hr, hq, hd, hs, hb.trans hanswers, rfl⟩
  have hlow := hbetween.runsTo_pin_delay (line := .rst) (v := .low) (ms := 500) rfl rfl
  have hhigh := (hbetween.advance [.pin .rst .low, .delayReq 500] 2 _ s.levels).runsTo_pin_delay
    (n := wait2) (b := rest) (line := .rst) (v := .high) (ms := 500) rfl rfl
  rw [State.advance_advance] at hhigh
  obtain ⟨k, hrun⟩ := hlow.trans hhigh
  rw [State.advance_frame, ← hd, ← hs] at hrun
  exact ⟨k, hrun⟩

/-! ### A Sync (R180) -/

/-- With no delay pending, the step performs the action at the step pointer (R22), also where a reset is to come in a
later step. -/
theorem step_action {s : State} {spc : Nat} {act : Action} (hr : s.resetAsserted = false) (hq : s.seq = .run spc)
    (hd : s.dly = false) (ha : s.renderSeq[spc]? = some act) : step s = .next (s.tickReset.perform spc act) := by
  have ha' : s.tickReset.renderSeq[spc]? = some act := ha
  rw [step_running hr hq, State.sequencerStep, State.tickReset_dly, hd, ha']
  rfl

/-- Settles O50: the sample, by its level, and the request after an asserted one. -/
theorem syncPollsBusy : Obligations.SyncPollsBusy := by
  intro s spc hr hq hd ha
  have hstep : step s = .next (s.tickReset.syncPass spc) := step_action hr hq hd ha
  have hlevel :
      s.tickReset.sampleBusy = (s.drawLevel.1, s.drawLevel.2.tickReset.emit (.busySample s.drawLevel.1)) := by
    rw [State.sampleBusy, State.drawLevel_tickReset]
  rw [State.syncPass, hlevel, State.tickReset_sent, State.tickReset_params] at hstep
  refine ⟨fun hs hl => ?asserted, fun hs hl => ?cleared, fun hs => ?request⟩
  case asserted =>
    rw [hstep, if_pos hs, if_pos hl, State.drawLevel_frame s]
    rfl
  case cleared =>
    rw [hstep, if_pos hs, if_neg hl, State.drawLevel_frame s, State.completeAction, ← hs]
    rfl
  case request =>
    rw [hstep, if_neg (by rw [hs]; exact Nat.one_ne_zero)]
    rfl

/-! ### A busy line that stays asserted (R183) -/

@[simp] theorem State.sequencerStep_words (spc : Nat) (s : State) : (s.sequencerStep spc).words = s.words := by
  rw [State.sequencerStep_frame]

@[simp] theorem State.sequencerStep_resetLine (spc : Nat) (s : State) :
    (s.sequencerStep spc).resetLine = s.resetLine := by
  rw [State.sequencerStep_frame]

@[simp] theorem State.sequencerStep_renderSeq (spc : Nat) (s : State) :
    (s.sequencerStep spc).renderSeq = s.renderSeq := by
  rw [State.sequencerStep_frame]
  rfl

/-- A render in the Sync at `spc`, with no reset to come, whose next `n` busy samples, at the least, are asserted. -/
structure State.HeldInSync (s : State) (spc n : Nat) : Prop where
  noReset : s.resetLine = []
  seq : s.seq = .run spc
  action : s.renderSeq[spc]? = some .sync
  enough : n ≤ s.levels.length
  asserted : ∀ l ∈ s.levels, l = s.params.busyActive

theorem State.HeldInSync.step_eq {s : State} {spc n : Nat} (h : s.HeldInSync spc n) :
    step s = .next (s.sequencerStep spc) := by
  rw [step_running (congrArg (·.headD false) h.noReset) h.seq, State.tickReset_of_nil h.noReset]

/-- A step leaves the step pointer at the Sync and takes at most one level of the panel's script: it waits for the
timer, takes an asserted sample, or requests a delay. -/
theorem State.HeldInSync.seq_levels {s : State} {spc n : Nat} (h : s.HeldInSync spc (n + 1)) :
    (s.sequencerStep spc).seq = .run spc ∧
      ((s.sequencerStep spc).levels = s.levels ∨ (s.sequencerStep spc).levels = s.levels.tail) := by
  obtain ⟨l, rest, hl⟩ := List.exists_cons_of_length_pos (n.succ_pos.trans_le h.enough)
  have hdraw := State.drawLevel_cons hl
  have hlevel : s.drawLevel.1 = s.params.busyActive := by
    rw [hdraw]
    exact h.asserted l (hl ▸ List.mem_cons_self)
  have hsync {act : Action} (ha : s.renderSeq[spc]? = some act) : act = .sync :=
    Option.some.inj (ha.symm.trans h.action)
  have hcase := State.sequencerStep_cases spc s
  generalize s.sequencerStep spc = t at hcase ⊢
  cases hcase with
  | held => rw [State.drawStrobe_frame]; exact ⟨h.seq, .inl rfl⟩
  | released => rw [State.drawStrobe_frame, h.action]; exact ⟨rfl, .inl rfl⟩
  | busy => rw [hdraw, hl]; exact ⟨h.seq, .inr rfl⟩
  | repoll => exact ⟨h.seq, .inl rfl⟩
  | ready _ _ _ hne => exact absurd hlevel hne
  | pin _ _ _ ha | delay _ _ ha | send _ _ ha | sendLast _ _ ha | sentAll _ _ ha => exact nomatch hsync ha
  | finished _ ha => exact nomatch ha.symm.trans h.action

theorem State.HeldInSync.sequencerStep {s : State} {spc n : Nat} (h : s.HeldInSync spc (n + 1)) :
    (s.sequencerStep spc).HeldInSync spc n := by
  obtain ⟨hseq, hlevels⟩ := h.seq_levels
  have henough := h.enough
  refine ⟨by rw [sequencerStep_resetLine, h.noReset], hseq, by rw [sequencerStep_renderSeq, h.action], ?enough,
    fun l hl => ?asserted⟩
  case enough =>
    rcases hlevels with h' | h' <;> rw [h']
    · omega
    · rw [List.length_tail]
      omega
  case asserted =>
    rw [sequencerStep_params]
    rcases hlevels with h' | h' <;> rw [h'] at hl
    · exact h.asserted l hl
    · exact h.asserted l (List.mem_of_mem_tail hl)

theorem State.HeldInSync.run {s t : State} {spc k : Nat} (h : s.HeldInSync spc k)
    (hrun : Sys2Proof.core.run k s = .next t) :
    t.seq = .run spc ∧ t.words = s.words ∧ t.parse = s.parse ∧ t.p = s.p ∧ t.a = s.a := by
  induction k generalizing s with
  | zero =>
    cases hrun
    exact ⟨h.seq, rfl, rfl, rfl, rfl⟩
  | succ k ih =>
    rw [run_succ k h.step_eq] at hrun
    simpa using ih h.sequencerStep hrun

/-- Settles O51: each step takes at most one of the asserted samples, so `k` of them hold the Sync for `k` steps. -/
theorem stuckBusyHangsRender : Obligations.StuckBusyHangsRender := by
  intro s t spc k hr hq ha hl hrun
  have hheld : s.HeldInSync spc k :=
    ⟨hr, hq, ha, by rw [hl, List.length_replicate], fun l hmem => List.eq_of_mem_replicate (hl ▸ hmem)⟩
  exact hheld.run hrun

end Sys2Proof.Machine

/-! PROOFS. CONFIGURE creates a Display and DESTROY releases it (R231, R233): what the two codes of CONFIGURE mean, and
what the status word shows when there is no Display (R41). -/

namespace Sys2Proof.Machine

/-! ### The codes of CONFIGURE (R84) -/

theorem decodeVariant_eq_some {varc : BitVec 2} {v : Variant}
    (h : varc = 0 ∧ v = .matching ∨ varc = 1 ∧ v = .rotated) : decodeVariant varc = some v := by
  rcases h with ⟨rfl, rfl⟩ | ⟨rfl, rfl⟩ <;> rfl

theorem decodeMode_eq_some {modec : BitVec 2} {m : ColorMode}
    (h : modec = 0 ∧ m = .bwr ∨ modec = 1 ∧ m = .bwy ∨ modec = 2 ∧ m = .bw) : decodeMode modec = some m := by
  rcases h with ⟨rfl, rfl⟩ | ⟨rfl, rfl⟩ | ⟨rfl, rfl⟩ <;> rfl

theorem execConfigure_eq_createDisplay {varc modec : BitVec 2} {v : Variant} {m : ColorMode}
    (hv : decodeVariant varc = some v) (hm : decodeMode modec = some m) (s : State) :
    execConfigure varc modec s = .next (s.createDisplay v m) := by
  simp only [execConfigure, hv, hm]

/-- Settles O17: both codes are known, and the empty listing of a new plane reads 0x00 at every index. -/
theorem configureCreatesDisplay : Obligations.ConfigureCreatesDisplay := by
  intro s varc modec v m hvar hmode
  have hv : decodeVariant varc = some v := decodeVariant_eq_some hvar
  have hm : decodeMode modec = some m := decodeMode_eq_some hmode
  refine ⟨s.createDisplay v m, execConfigure_eq_createDisplay hv hm s, rfl, fun i => ?zero⟩
  rw [State.createDisplay_p, State.createDisplay_a, Memory.read_nil]
  exact ⟨rfl, rfl⟩

/-! ### No Display -/

/-- R41: the fault bits are in none of the positions of CFG, VAR, MODE and BORDER. -/
theorem FaultBits.getLsbD_word_low (f : FaultBits) {i : Nat} (h : i < 8) : f.word.getLsbD i = false := by
  have hpos : i ≠ 8 ∧ i ≠ 9 ∧ i ≠ 10 ∧ i ≠ 11 ∧ i ≠ 12 := by omega
  rw [FaultBits.getLsbD_word]
  simp [hpos]

/-- R41: with CFG = 0 the status word says nothing of VAR, MODE and BORDER. -/
theorem State.extract_statusWord_unconfigured {s : State} (hc : s.cfg = false) :
    s.statusWord.extractLsb' 0 7 = 0 := by
  apply BitVec.eq_of_getLsbD_eq
  intro i hi
  have hlow : s.fault.word.getLsbD (0 + i) = false := s.fault.getLsbD_word_low (by omega)
  rw [BitVec.getLsbD_extractLsb', State.getLsbD_statusWord, hc, hlow]
  simp

/-- Settles O19: the free values in the planes are canonical, and the status word does not show the others. -/
theorem destroyReleasesDisplay : Obligations.DestroyReleasesDisplay := by
  intro s hc
  have hexec : exec .destroy s = .next s.releaseDisplay := if_pos hc
  exact ⟨s.releaseDisplay, hexec, rfl, State.extract_statusWord_unconfigured s.releaseDisplay_cfg,
    Memory.wf_ofBytes _, Memory.wf_ofBytes _⟩

end Sys2Proof.Machine

/-! PROOFS. The faults of R262 to R265 and that a command records one at most (R269): which word sequences are illegal
and what the step that completes one does, and each command that is refused with its fault bit alone. -/

namespace Sys2Proof.Machine

/-! ### Illegal commands (R262) -/

/-- The opcodes that always respond, as statements write them (R238). -/
theorem respondsAlways_ofWord (w0 : Word) :
    respondsAlways (Opcode.ofWord w0) = true ↔ (w0 >>> 28).toNat ∈ [0x7, 0x8, 0xA] := by
  rw [Opcode.toNat_ushiftRight]
  cases Opcode.ofWord w0 <;> decide

/-- A reserved opcode decodes to a command whose effect is that of an illegal one. -/
theorem exec_decodeFields_reserved {w0 : Word} (h : (w0 >>> 28).toNat ∈ [0x0, 0xB, 0xC, 0xD, 0xE, 0xF])
    (rest : List Word) (s : State) :
    exec (decodeFields w0 rest) s = .next (s.rejectCommand (Opcode.ofWord w0)) := by
  rw [Opcode.toNat_ushiftRight] at h
  unfold decodeFields
  cases hop : Opcode.ofWord w0 with
  | reserved0 | reservedB | reservedC | reservedD | reservedE | reservedF => rfl
  | _ =>
    rw [hop] at h
    exact absurd h (by decide)

/-- R30, R89: the word that completes a command with a reserved bit set has it rejected. -/
theorem step_illegal {s : State} {w : Word} {rest : List Word} {opc : Opcode} (hr : s.resetAsserted = false)
    (hq : s.seq = .idle) (hw : s.resp = none) (ho : s.words = w :: rest)
    (hd : decode (s.parse ++ [w]) = .error (.reservedBits opc))
    (hc : commandComplete (s.parse ++ [w]) = true) :
    step s = .next (State.rejectCommand opc { s.tickReset with words := rest, parse := [] }) := by
  have h := step_cases s
  generalize step s = r at h ⊢
  cases h with
  | illegal _ _ _ w' rest' ho' _ opc' hd' =>
    rw [ho] at ho'
    cases ho'
    rw [hd] at hd'
    cases hd'
    rfl
  | _ => simp_all

/-- Settles O28: a word 0 that matches its row can be illegal by its opcode alone, and then the command it decodes to
does what the rejection of any other word 0 does. -/
theorem illegalCommandsAreConsumed : Obligations.IllegalCommandsAreConsumed := by
  intro s w0 w rest hr hq hw ho hhead hc hbad
  have hreject : step s =
      .next (State.rejectCommand (Opcode.ofWord w0) { s.tickReset with words := rest, parse := [] }) := by
    obtain ⟨w0', tail, n, hws, -, -, hd⟩ := decode_of_complete hc
    obtain rfl : w0' = w0 := by simpa [hws] using hhead
    by_cases hmatch : headerMatches w0' = true
    · rw [if_pos hmatch] at hd
      have hreserved := hbad.resolve_right (not_not_intro ((headerMatches_iff rfl).1 hmatch))
      rw [step_command hr hq hw ho hd, exec_decodeFields_reserved hreserved]
    · rw [if_neg hmatch] at hd
      exact step_illegal hr hq hw ho hd hc
  rw [hreject, State.rejectCommand_eq]
  simp only [respondsAlways_ofWord, State.tickReset, hw]
  rfl

/-- Settles O25. -/
theorem reservedOpcodesAreIllegal : Obligations.ReservedOpcodesAreIllegal := by
  intro s low i hi
  rcases hi with rfl | rfl | rfl | rfl | rfl | rfl <;> rfl

/-! ### CONFIGURE with an unknown code (R265) -/

theorem execConfigure_eq_raise {varc modec : BitVec 2} (h : decodeVariant varc = none ∨ decodeMode modec = none)
    (s : State) : execConfigure varc modec s = .next (s.raise .config) := by
  unfold execConfigure
  rcases h with hv | hm
  · rw [hv]
  · rw [hm]
    cases decodeVariant varc <;> rfl

/-- Settles O18. -/
theorem configureRejectsUnknownCodes : Obligations.ConfigureRejectsUnknownCodes := by
  intro s varc modec hcode
  apply execConfigure_eq_raise
  rcases hcode with rfl | rfl | rfl
  · exact .inl rfl
  · exact .inl rfl
  · exact .inr rfl

/-! ### Commands that need a Display (R263) -/

/-- What a command that asks for a Display does without one. -/
theorem State.ite_unconfigured {s : State} (hc : s.cfg = false) (r r' : Result) : (if s.cfg then r else r') = r' :=
  if_neg (by rw [hc]; exact Bool.false_ne_true)

/-- Settles O26, command by command: each asks for a Display before it looks at its operands. -/
theorem noDisplayMeansNotConfigured : Obligations.NoDisplayMeansNotConfigured := by
  intro s i hc
  refine ⟨fun hi => ?silent, fun hi => ?responding⟩
  case silent =>
    rcases hi with rfl | rfl | ⟨_, rfl⟩ | ⟨_, _, _, rfl⟩ | ⟨_, _, _, _, _, rfl⟩ | ⟨_, _, _, _, _, _, rfl⟩ <;>
      exact State.ite_unconfigured hc _ _
  case responding => rcases hi with rfl | rfl <;> exact State.ite_unconfigured hc _ _

/-! ### Bad operands (R264) -/

/-- R84: 0b11 is no PixelValue. -/
theorem decodePV_three : decodePV 3 = none := rfl

theorem execDrawBitmap_eq_raise {s : State} (hc : s.cfg = true) {pvc : BitVec 2} (x y w : BitVec 16)
    {h : BitVec 16} (bitmap : List Byte) (hbad : decodePV pvc = none ∨ 8 < h.toNat) :
    execDrawBitmap pvc x y w h bitmap s = .next (s.raise .badOperand) := by
  rw [execDrawBitmap, if_pos hc]
  rcases hbad with hpv | hh
  · rw [hpv]
  · cases decodePV pvc with
    | none => rfl
    | some v => exact if_pos hh

/-- Settles O27, cause by cause. -/
theorem badOperandsAreRefused : Obligations.BadOperandsAreRefused := by
  intro s i hc hi
  rcases hi with rfl | ⟨x, y, rfl⟩ | ⟨x, y, w, h, rfl⟩ | ⟨x, y, w, h, bitmap, rfl⟩ |
    ⟨pvc, x, y, w, h, bitmap, hh, rfl⟩
  · exact if_pos hc
  · exact if_pos hc
  · exact if_pos hc
  · exact execDrawBitmap_eq_raise hc x y w (h := h) bitmap (.inl decodePV_three)
  · exact execDrawBitmap_eq_raise hc x y w bitmap (.inr hh)

/-! ### One fault a command (R269) -/

/-- Settles O31, by the case of the command: it leaves FAULT as it was, or raises one kind, or paints, and the pixels
that miss all flag the same kind. -/
theorem oneFaultPerCommand : Obligations.OneFaultPerCommand := by
  intro s t i hclear h
  rw [← hclear]
  cases exec_cases h with
  | configured | released | bordered | started | responded => exact .inl rfl
  | raised k | raisedReading _ k => exact .inr ⟨k, rfl⟩
  | painted hi hc v ps =>
    rw [State.paint_fault]
    split
    · exact .inr ⟨.addr, rfl⟩
    · exact .inl rfl

end Sys2Proof.Machine
